-- ==== Sys2Proof/Word.lean ====
section
/-! DEFINITION. The word types of the block (spec R8): bytes, u16, u32, and byte sequences of a fixed length. -/

namespace Sys2Proof

/-- A byte is 8 bits (R8). -/
abbrev Byte := BitVec 8

/-- An unsigned integer of 16 bits (R8). -/
abbrev Half := BitVec 16

/-- An unsigned integer of 32 bits (R8). -/
abbrev Word := BitVec 32

/-- A byte sequence of exactly `n` bytes, byte 0 first (R8): the wire structures of R53 and the command block of R71. -/
structure Bytes (n : Nat) where
  toList : List Byte
  length_eq : toList.length = n
deriving DecidableEq, Repr

end Sys2Proof
end

