-- ==== Sys2Proof/Syntax.lean ====
section
/-! DEFINITION. The formats the block decodes (R70), one constructor of `Instr` per row of spec/opcode_table.json, and the
moves of the environment that make the block act (R4, R208, R223). -/

namespace Sys2Proof

/-- A decoded Command Block Wrapper without its signature (R71, R101). -/
structure Cbw where
  tag : Word
  dtl : Word
  flags : Byte
  lun : Byte
  cblen : Byte
  cb : Bytes 16
deriving DecidableEq, Repr

/-- Bytes 1 to 15 of a READ(10) or WRITE(10) command block (R79). The block reads only `lba` and `blocks`; bytes 10 to 15
lie beyond the ten-byte command and are kept as `rest`. -/
structure BlockArgs where
  flags : Byte
  lba : Word
  group : Byte
  blocks : Half
  control : Byte
  rest : Bytes 6
deriving DecidableEq, Repr

/-- The formats of R70 that carry an operation. The entry point that runs fixes the format (R214). -/
inductive Format where
  | cdb | cbw | event | tick | reset
deriving DecidableEq, Repr

/-- The rows of the opcode map (R81). -/
inductive CdbRow where
  | testUnitReady | requestSense | inquiry | modeSense6 | startStopUnit | preventAllowMediumRemoval
  | readCapacity10 | read10 | write10 | invalid
deriving DecidableEq, Repr

/-- One constructor per row of spec/opcode_table.json. A command row keeps every byte of its command block, read or not
(R74, R78, R79); an event row keeps the event's payload (R87); a tick row has no operand (R88). -/
inductive Instr where
  | testUnitReady (tail : Bytes 15)
  | requestSense (tail : Bytes 15)
  | inquiry (tail : Bytes 15)
  | modeSense6 (tail : Bytes 15)
  | startStopUnit (tail : Bytes 15)
  | preventAllowMediumRemoval (tail : Bytes 15)
  | readCapacity10 (tail : Bytes 15)
  | read10 (args : BlockArgs)
  | write10 (args : BlockArgs)
  | invalid (opcode : Byte) (tail : Bytes 15)
  | cbwValid (c : Cbw)
  | cbwMalformed (raw : Bytes 31)
  | evReserved
  | evCbw (raw : Bytes 31)
  | evData (bytes : List Byte)
  | evTxdone
  | tickAwait
  | tickCommand
  | tickDinStart
  | tickDinWait
  | tickDoutArm
  | tickDoutWait
  | tickNodata
  | tickStsStart
  | tickStsWait
  | tickBad
  | reset
deriving DecidableEq, Repr

/-- Why the decoder refuses a byte sequence. -/
inductive Reject where
  /-- The sequence is shorter or longer than its format. -/
  | wrongLength
  /-- Bits 7:2 of an event's kind byte are not zero: `kind` is a u2 (R87). -/
  | kindBits
  /-- Bits 7:4 of a tick's selector byte are not zero: the selector is a 4-bit value (opcode table, F-TICK rows). -/
  | selectorBits
deriving DecidableEq, Repr

/-- A transport event, the record of R87 by its kind: 0 reserved, 1 `EV_CBW`, 2 `EV_DATA` (whose `len` is the number of
bytes), 3 `EV_TXDONE`. The transport delivers a CBW as exactly 31 bytes (R53, R223). -/
inductive UsbEvent where
  | reserved
  | cbw (raw : Bytes 31)
  | data (bytes : List Byte)
  | txDone
deriving DecidableEq, Repr

/-- One move of the environment, which makes at most one atomic step of the block happen (R5, R210): power-on or startup
(R231), a USB bus or class reset (R231), a transport event run in the interrupt context (R208), or a call of
`StorageTick()` in the main context. A tick carries what the environment contributes to it: how many milliseconds, below
2^31, the clock advanced since it was last read (R217), and the flash store's answer to a call made in that tick (R12, R56). -/
inductive Move where
  | powerOn
  | busReset
  | event (e : UsbEvent)
  | tick (elapsed : BitVec 31) (flashOk : Bool)
deriving DecidableEq, Repr, Inhabited

end Sys2Proof
end

