-- ==== Sys2Proof/Config.lean ====
section
/-! DEFINITION. The parameters of the block (R6), the constraints on them (R7), and the free values: what the spec leaves open
and no proof can see. -/

namespace Sys2Proof

/-- A sense tuple: key, ASC, ASCQ (R33). -/
structure Sense where
  key : BitVec 4
  asc : Byte
  ascq : Byte
deriving DecidableEq, Repr

/-- What READ CAPACITY(10) reports in bytes 0..3 (R86). -/
inductive ReadCapMode where
  | blockCount | lastLba
deriving DecidableEq, Repr

/-- A stretch of a flash store's address map: the `count` offsets from `first` on lie at the places from `place` on. -/
structure FlashRun where
  first : Nat
  count : Nat
  place : Nat
deriving DecidableEq, Repr

/-- How the flash store maps an offset at or beyond its size (R57): modulo its size, or by a map that is an argument of the
model, given as its stretches; the first stretch that holds an offset decides (entry 13). -/
inductive FlashAddrMap where
  | modSize
  | external (runs : List FlashRun)
deriving DecidableEq, Repr

/-- `MAX_BLOCKS`, the largest block count of one READ(10) or WRITE(10) (R6). -/
def maxBlocks : Nat := 65535

/-- The parameters of R6, fixed while the block runs, and the flash store's `FlashSize()`, fixed for a run (R233). R7 bounds
`T_DATA_MS` and `T_CSW_MS` to a u32; that `T_DOUT_MS` is one too is the model's choice (DESIGN CHOICE, entry 25). -/
structure Config where
  blockSize : Nat
  bufBytes : Nat
  tDataMs : Word
  tCswMs : Word
  tDoutMs : Option Word
  senseInvalidOpcode : Sense
  senseMediumRead : Sense
  senseMediumWrite : Sense
  senseDataTimeout : Sense
  noopOpcodes : List Byte
  readcapMode : ReadCapMode
  inquiryData : Bytes 36
  modeSenseData : List Byte
  flashAddrMap : FlashAddrMap
  resetOnBusReset : Bool
  flashSize : Nat
deriving DecidableEq, Repr

/-- `BLOCK_SIZE` is a power of two, at least 1 (R7) and "no larger than 2^32" (R58). -/
def Config.blockSizeOk (c : Config) : Bool :=
  (List.range 33).any (fun k => c.blockSize == 2 ^ k)

/-- `1 <= FlashSize() / BLOCK_SIZE <= 0xFFFFFFFF`, by integer division (R7). -/
def Config.flashSizeOk (c : Config) : Bool :=
  decide (1 ≤ c.flashSize / c.blockSize) && decide (c.flashSize / c.blockSize ≤ 0xFFFFFFFF)

/-- `MODE_SENSE_DATA` is 1 to 255 bytes and has bit 7 of byte 2 set (R7). -/
def Config.modeSenseOk (c : Config) : Bool :=
  decide (1 ≤ c.modeSenseData.length) && decide (c.modeSenseData.length ≤ 255) &&
    (c.modeSenseData.getD 2 0).getLsbD 7

/-- Each sense tuple has a key of 0x1 to 0xF (R7). -/
def Config.sensesOk (c : Config) : Bool :=
  c.senseInvalidOpcode.key != 0 && c.senseMediumRead.key != 0 && c.senseMediumWrite.key != 0 &&
    c.senseDataTimeout.key != 0

/-- `NOOP_OPCODES` is disjoint from the opcodes of the seven named commands (R7). -/
def Config.noopsOk (c : Config) : Bool :=
  c.noopOpcodes.all fun op => !([0x00, 0x03, 0x12, 0x1A, 0x25, 0x28, 0x2A] : List Byte).contains op

/-- The constraints on a configuration: R7, and the capacity of the data buffer (R6, R52). -/
def Config.wf (c : Config) : Bool :=
  c.blockSizeOk && decide (maxBlocks * c.blockSize ≤ c.bufBytes) && c.flashSizeOk && c.modeSenseOk && c.sensesOk &&
    c.noopsOk

/-- The default `INQUIRY_DATA` (R84). -/
def defaultInquiryData : Bytes 36 :=
  ⟨[0x00, 0x00, 0x00, 0x02, 0x1F, 0x00, 0x00, 0x00,
    0x55, 0x4E, 0x49, 0x56, 0x42, 0x4F, 0x58, 0x20,
    0x53, 0x50, 0x49, 0x20, 0x46, 0x4C, 0x41, 0x53, 0x48, 0x20, 0x44, 0x49, 0x53, 0x4B, 0x20, 0x20,
    0x31, 0x2E, 0x30, 0x30], rfl⟩

/-- The defaults of R6, with the values that the spec's test configuration TC (95_test_vectors.md section 0) gives the
open ones: `T_DATA_MS` and `T_CSW_MS` 1000, `FlashSize()` 8 MiB. R6 gives `BUF_BYTES` a lower bound only; the standard
configuration takes the bound itself. DESIGN CHOICE, entry 4. -/
def Config.standard : Config where
  blockSize := 512
  bufBytes := 33553920
  tDataMs := 1000
  tCswMs := 1000
  tDoutMs := none
  senseInvalidOpcode := ⟨0x5, 0x20, 0x00⟩
  senseMediumRead := ⟨0x3, 0x11, 0x00⟩
  senseMediumWrite := ⟨0x3, 0x0C, 0x00⟩
  senseDataTimeout := ⟨0xB, 0x00, 0x00⟩
  noopOpcodes := [0x1B, 0x1E]
  readcapMode := .blockCount
  inquiryData := defaultInquiryData
  modeSenseData := [0x03, 0x00, 0x80, 0x00]
  flashAddrMap := .modSize
  resetOnBusReset := false
  flashSize := 8388608

/-- FREE VALUE. The byte of draw `k`: the unspecified contents of the flash after a failed write (R56, U8), and of `mbox`
and `csw_buf` after a reset (R230, U17). -/
opaque Config.freeByte : Nat → Byte

/-- FREE VALUE. The unspecified contents of `buf` after the reset of draw `k` (R230, U17). -/
opaque Config.freeBuffer : Nat → List Byte

/-- FREE VALUE. The environment's move of draw `k`, where State lists none: any interleaving is possible (R210). -/
opaque Config.freeMove : Nat → Move

/-- FREE VALUE. Where a flash store of size `size` resolves an offset at or beyond its size that no stretch of its address
map holds (R57, U6); taken modulo `size`. -/
opaque Config.externalFlashMap : (size offset : Nat) → Nat

/-- FREE VALUE. How many blocks a READ(10) or WRITE(10) of `blocks` blocks moves where their bytes do not fit the u32
`xfer_len` (R21, R80; entry 5). -/
opaque Config.freeBlockCount : (blockSize : Nat) → (blocks : Half) → Nat

end Sys2Proof
end

