-- ==== Sys2Proof/WellFormed.lean ====
section
/-! DEFINITION. Which terms of `Instr` stand for an operation of the opcode table. -/

namespace Sys2Proof

/-- The opcodes that have a row of their own in the opcode map (R81). -/
def namedOpcodes : List Byte := [0x00, 0x03, 0x12, 0x1A, 0x1B, 0x1E, 0x25, 0x28, 0x2A]

/-- The bytes of the CBW signature as they lie on the wire (R72). -/
def signatureBytes : List Byte := [0x55, 0x53, 0x42, 0x43]

/-- An instruction is well-formed when a row that is chosen "only when" something else fails is not used for what another
row covers (R81, R101), and an event's length fits its u32 `len` (R87). -/
def Instr.wf : Instr → Bool
  | .invalid opcode _ => !namedOpcodes.contains opcode
  | .cbwMalformed raw => raw.toList.take 4 != signatureBytes
  | .evData bytes => decide (bytes.length < 2 ^ 32)
  | .testUnitReady _ => true
  | .requestSense _ => true
  | .inquiry _ => true
  | .modeSense6 _ => true
  | .startStopUnit _ => true
  | .preventAllowMediumRemoval _ => true
  | .readCapacity10 _ => true
  | .read10 _ => true
  | .write10 _ => true
  | .cbwValid _ => true
  | .evReserved => true
  | .evCbw _ => true
  | .evTxdone => true
  | .tickAwait => true
  | .tickCommand => true
  | .tickDinStart => true
  | .tickDinWait => true
  | .tickDoutArm => true
  | .tickDoutWait => true
  | .tickNodata => true
  | .tickStsStart => true
  | .tickStsWait => true
  | .tickBad => true
  | .reset => true

end Sys2Proof
end

