-- ==== Sys2Proof/Decode.lean ====
section
/-! DEFINITION. Byte assembly (R9), the codec of the wrappers (R100-R104), the decoder of every format (R70-R92) and, after it,
the encoder. -/

namespace Sys2Proof

/-! Bytes and multi-byte values -/

/-- `b[i]` (R8); 0 past the end, which no caller reaches. -/
def byteAt (bs : List Byte) (i : Nat) : Byte := bs.getD i 0

/-- `le32(b, i)` (R9). -/
def le32 (bs : List Byte) (i : Nat) : Word :=
  byteAt bs (i + 3) ++ byteAt bs (i + 2) ++ byteAt bs (i + 1) ++ byteAt bs i

/-- `be32(b, i)` (R9). -/
def be32 (bs : List Byte) (i : Nat) : Word :=
  byteAt bs i ++ byteAt bs (i + 1) ++ byteAt bs (i + 2) ++ byteAt bs (i + 3)

/-- `be16(b, i)` (R9). -/
def be16 (bs : List Byte) (i : Nat) : Half :=
  byteAt bs i ++ byteAt bs (i + 1)

/-- `LE32(v)` (R9). -/
def wordLE (v : Word) : List Byte :=
  [v.extractLsb' 0 8, v.extractLsb' 8 8, v.extractLsb' 16 8, v.extractLsb' 24 8]

/-- `BE32(v)` (R9). -/
def wordBE (v : Word) : List Byte :=
  [v.extractLsb' 24 8, v.extractLsb' 16 8, v.extractLsb' 8 8, v.extractLsb' 0 8]

/-- The two bytes of a u16, the most significant first: the inverse of `be16`. -/
def halfBE (v : Half) : List Byte :=
  [v.extractLsb' 8 8, v.extractLsb' 0 8]

/-- The first `n` bytes of a sequence, with 0 where it is shorter. -/
def fitList : Nat → List Byte → List Byte
  | 0, _ => []
  | n + 1, [] => 0 :: fitList n []
  | n + 1, b :: bs => b :: fitList n bs

theorem fitList_length (n : Nat) (bs : List Byte) : (fitList n bs).length = n := by
  induction n generalizing bs with
  | zero => rfl
  | succ n ih => cases bs <;> simp [fitList, ih]

/-- The first `n` bytes of a sequence as a sequence of exactly `n` bytes. -/
def Bytes.fit (n : Nat) (bs : List Byte) : Bytes n := ⟨fitList n bs, fitList_length n bs⟩

/-- `n` bytes, byte `i` being `f i`. -/
def Bytes.tabulate (n : Nat) (f : Nat → Byte) : Bytes n := ⟨(List.range n).map f, by simp⟩

/-! The wrapper codec -/

/-- The CBW signature, "USBC" on the wire (R72). -/
def cbwSignature : Word := 0x43425355

/-- The CSW signature, "USBS" on the wire (R75). -/
def cswSignature : Word := 0x53425355

/-- `DecodeCbw` (R101): `none` is `MalformedError`. Only the signature is checked (R72, R74). -/
def decodeCbw (raw : Bytes 31) : Option Cbw :=
  let b := raw.toList
  if le32 b 0 = cbwSignature then
    some { tag := le32 b 4, dtl := le32 b 8, flags := byteAt b 12, lun := byteAt b 13, cblen := byteAt b 14,
           cb := Bytes.fit 16 (b.drop 15) }
  else none

/-- The 31 bytes of a CBW (R71). -/
def encodeCbw (c : Cbw) : Bytes 31 :=
  Bytes.fit 31 (wordLE cbwSignature ++ wordLE c.tag ++ wordLE c.dtl ++ [c.flags, c.lun, c.cblen] ++ c.cb.toList)

/-- `EncodeCsw` (R103). -/
def encodeCsw (tag residue : Word) (status : Byte) : Bytes 13 :=
  Bytes.fit 13 (wordLE cswSignature ++ wordLE tag ++ wordLE residue ++ [status])

/-! Decoding -/

/-- The opcode map (R81), matched on the whole byte (R77). Membership in `NOOP_OPCODES`, which is configuration, is
checked by the meanings of the rows it moves (R92). -/
def cdbRow (opcode : Byte) : CdbRow :=
  if opcode = 0x00 then .testUnitReady
  else if opcode = 0x03 then .requestSense
  else if opcode = 0x12 then .inquiry
  else if opcode = 0x1A then .modeSense6
  else if opcode = 0x1B then .startStopUnit
  else if opcode = 0x1E then .preventAllowMediumRemoval
  else if opcode = 0x25 then .readCapacity10
  else if opcode = 0x28 then .read10
  else if opcode = 0x2A then .write10
  else .invalid

/-- Bytes 1 to 15 of a command block. -/
def cdbTail (cb : Bytes 16) : Bytes 15 := Bytes.fit 15 (cb.toList.drop 1)

/-- The operands of READ(10) and WRITE(10) (R79, R80). -/
def cdbBlockArgs (cb : Bytes 16) : BlockArgs :=
  let b := cb.toList
  { flags := byteAt b 1, lba := be32 b 2, group := byteAt b 6, blocks := be16 b 7, control := byteAt b 9,
    rest := Bytes.fit 6 (b.drop 10) }

/-- A command block as an instruction (R70, R77). -/
def decodeCdb (cb : Bytes 16) : Instr :=
  match cdbRow (byteAt cb.toList 0) with
  | .testUnitReady => .testUnitReady (cdbTail cb)
  | .requestSense => .requestSense (cdbTail cb)
  | .inquiry => .inquiry (cdbTail cb)
  | .modeSense6 => .modeSense6 (cdbTail cb)
  | .startStopUnit => .startStopUnit (cdbTail cb)
  | .preventAllowMediumRemoval => .preventAllowMediumRemoval (cdbTail cb)
  | .readCapacity10 => .readCapacity10 (cdbTail cb)
  | .read10 => .read10 (cdbBlockArgs cb)
  | .write10 => .write10 (cdbBlockArgs cb)
  | .invalid => .invalid (byteAt cb.toList 0) (cdbTail cb)

/-- A received wrapper as an instruction: rows CBW_VALID and CBW_MALFORMED. -/
def decodeWrapper (raw : Bytes 31) : Instr :=
  match decodeCbw raw with
  | some c => .cbwValid c
  | none => .cbwMalformed raw

/-- `StorageOnUsbEvent`'s selection by the event's kind (R160). -/
def decodeEvent : UsbEvent → Instr
  | .reserved => .evReserved
  | .cbw raw => .evCbw raw
  | .data bytes => .evData bytes
  | .txDone => .evTxdone

/-- `StorageTick`'s selection (R130), by the 4-bit selector of the opcode table's F-TICK rows: bits 3:1 are `phase`, bit 0
the sub-state, which counts in phases 2, 3 and 5. -/
def decodeTick (sel : BitVec 4) : Instr :=
  match (sel.extractLsb' 1 3).toNat, sel.getLsbD 0 with
  | 0, _ => .tickAwait
  | 1, _ => .tickCommand
  | 2, false => .tickDinStart
  | 2, true => .tickDinWait
  | 3, false => .tickDoutArm
  | 3, true => .tickDoutWait
  | 4, _ => .tickNodata
  | 5, false => .tickStsStart
  | 5, true => .tickStsWait
  | _, _ => .tickBad

/-- An event record laid out as bytes: the kind (a u2) in the first byte; then 31 bytes of CBW, or the u32 `len` in
little-endian order and `len` bytes of data, or nothing (R87). The layout is the model's (DESIGN CHOICE, entry 2). -/
def decodeEventBytes : List Byte → Except Reject Instr
  | [] => .error .wrongLength
  | kind :: rest =>
    if kind = 0 then
      if rest.length = 0 then .ok (decodeEvent .reserved) else .error .wrongLength
    else if kind = 1 then
      if rest.length = 31 then .ok (decodeEvent (.cbw (Bytes.fit 31 rest))) else .error .wrongLength
    else if kind = 2 then
      if rest.length = 4 + (le32 rest 0).toNat then .ok (decodeEvent (.data (rest.drop 4))) else .error .wrongLength
    else if kind = 3 then
      if rest.length = 0 then .ok (decodeEvent .txDone) else .error .wrongLength
    else .error .kindBits

/-- The decoder: total on every byte sequence of every format, refusing by name. -/
def decode (f : Format) (bs : List Byte) : Except Reject Instr :=
  match f with
  | .cdb => if bs.length = 16 then .ok (decodeCdb (Bytes.fit 16 bs)) else .error .wrongLength
  | .cbw => if bs.length = 31 then .ok (decodeWrapper (Bytes.fit 31 bs)) else .error .wrongLength
  | .event => decodeEventBytes bs
  | .tick =>
    if bs.length = 1 then
      if (byteAt bs 0).toNat < 16 then .ok (decodeTick ((byteAt bs 0).setWidth 4)) else .error .selectorBits
    else .error .wrongLength
  | .reset => if bs.length = 0 then .ok .reset else .error .wrongLength

/-! Encoding -/

/-- The format an instruction belongs to (opcode table, column `format`). -/
def Instr.format : Instr → Format
  | .testUnitReady _ => .cdb
  | .requestSense _ => .cdb
  | .inquiry _ => .cdb
  | .modeSense6 _ => .cdb
  | .startStopUnit _ => .cdb
  | .preventAllowMediumRemoval _ => .cdb
  | .readCapacity10 _ => .cdb
  | .read10 _ => .cdb
  | .write10 _ => .cdb
  | .invalid _ _ => .cdb
  | .cbwValid _ => .cbw
  | .cbwMalformed _ => .cbw
  | .evReserved => .event
  | .evCbw _ => .event
  | .evData _ => .event
  | .evTxdone => .event
  | .tickAwait => .tick
  | .tickCommand => .tick
  | .tickDinStart => .tick
  | .tickDinWait => .tick
  | .tickDoutArm => .tick
  | .tickDoutWait => .tick
  | .tickNodata => .tick
  | .tickStsStart => .tick
  | .tickStsWait => .tick
  | .tickBad => .tick
  | .reset => .reset

/-- Bytes 1 to 15 of a READ(10) or WRITE(10) command block (R79). -/
def blockArgsBytes (a : BlockArgs) : List Byte :=
  [a.flags] ++ wordBE a.lba ++ [a.group] ++ halfBE a.blocks ++ [a.control] ++ a.rest.toList

/-- The bytes of an instruction, from the encoding tables of R71, R81, R87 and the opcode table's F-TICK rows. -/
def encode : Instr → List Byte
  | .testUnitReady tail => 0x00 :: tail.toList
  | .requestSense tail => 0x03 :: tail.toList
  | .inquiry tail => 0x12 :: tail.toList
  | .modeSense6 tail => 0x1A :: tail.toList
  | .startStopUnit tail => 0x1B :: tail.toList
  | .preventAllowMediumRemoval tail => 0x1E :: tail.toList
  | .readCapacity10 tail => 0x25 :: tail.toList
  | .read10 args => 0x28 :: blockArgsBytes args
  | .write10 args => 0x2A :: blockArgsBytes args
  | .invalid opcode tail => opcode :: tail.toList
  | .cbwValid c => (encodeCbw c).toList
  | .cbwMalformed raw => raw.toList
  | .evReserved => [0x00]
  | .evCbw raw => 0x01 :: raw.toList
  | .evData bytes => 0x02 :: (wordLE (BitVec.ofNat 32 bytes.length) ++ bytes)
  | .evTxdone => [0x03]
  | .tickAwait => [0x0]
  | .tickCommand => [0x2]
  | .tickDinStart => [0x4]
  | .tickDinWait => [0x5]
  | .tickDoutArm => [0x6]
  | .tickDoutWait => [0x7]
  | .tickNodata => [0x8]
  | .tickStsStart => [0xA]
  | .tickStsWait => [0xB]
  | .tickBad => [0xC]
  | .reset => []

/-! The opcode table's words -/

/-- The bytes of a number, byte 0 its least significant eight bits. -/
def bytesOfNat : Nat → Nat → List Byte
  | 0, _ => []
  | n + 1, w => BitVec.ofNat 8 w :: bytesOfNat n (w / 256)

/-- Which format a word of the opcode table is read in. The table's numbers overlap between the formats, and a word does
not name its own: no byte is the reset row; four bytes or more are a CBW; else the first byte is read as a named
opcode of R81, else as an event kind, else as a tick selector, else as an opcode (DESIGN CHOICE, entry 3). -/
def tableFormat (bs : List Byte) : Format :=
  if bs.length = 0 then .reset
  else if 4 ≤ bs.length then .cbw
  else if namedOpcodes.contains (byteAt bs 0) then .cdb
  else if (byteAt bs 0).toNat < 4 then .event
  else if (byteAt bs 0).toNat < 16 then .tick
  else .cdb

/-- The bytes of a format's operation that begins with the given ones, every further byte being 0. -/
def completeBytes (f : Format) (bs : List Byte) : List Byte :=
  match f with
  | .cdb => fitList 16 bs
  | .cbw => fitList 31 bs
  | .event =>
    if byteAt bs 0 = 1 then fitList 32 bs
    else if byteAt bs 0 = 2 then fitList 5 bs
    else fitList 1 bs
  | .tick => fitList 1 bs
  | .reset => []

/-- The instruction the decoder reads from a word of the opcode table (the fixed name of the task's interface). -/
def decodeTableWord (nbits w : Nat) : Option Instr :=
  let bs := bytesOfNat ((nbits + 7) / 8) w
  let f := tableFormat bs
  match decode f (completeBytes f bs) with
  | .ok i => some i
  | .error _ => none

end Sys2Proof
end

