-- ==== Sys2Proof/Machine/State.lean ====
section
/-! DEFINITION. The state of the block (R20, table T1 of R21), its environment (R4), the reasons a step can stop, and the machine
right after reset (R230). -/

namespace Sys2Proof.Machine

/-- The phases and the two reserved codes of the 3-bit register `phase` (R22). -/
inductive Phase where
  | awaitingCbw | commandPhase | dataInPhase | dataOutPhase | noDataPhase | statusPhase | reserved6 | reserved7
deriving DecidableEq, Repr

/-- The handler the interpreter chose, codes 0 to 9 of `hkind` (R27). No rule writes codes 10 to 15. -/
inductive HandlerKind where
  | none | tur | reqsense | inquiry | modesense6 | readcap10 | read10 | write10 | noop | invalid
deriving DecidableEq, Repr

/-- `tx_state`: 0 `IDLE`, 1 `PENDING` (R31). -/
inductive TxState where
  | idle | pending
deriving DecidableEq, Repr

/-- `tx_kind`: 0 `DATA`, 1 `CSW` (R31). -/
inductive TxKind where
  | data | csw
deriving DecidableEq, Repr

/-- The names of the ghost faults (R206): model-only records that the environment broke an assumption. -/
inductive GhostFault where
  | cbwOverlap | dataUnexpected | dataOverrun | txdoneSpurious | eventReserved | badPhase
deriving DecidableEq, Repr

/-- A set of ghost-fault names (R21 `faults`): one flag for each name, so that equal sets are equal data. -/
structure FaultSet where
  cbwOverlap : Bool
  dataUnexpected : Bool
  dataOverrun : Bool
  txdoneSpurious : Bool
  eventReserved : Bool
  badPhase : Bool
deriving DecidableEq, Repr

/-- The empty set. -/
def FaultSet.empty : FaultSet := ⟨false, false, false, false, false, false⟩

/-- A byte-addressed storage space (R50): its (address, byte) pairs. Its canonical form is `Memory.wf` in Machine/Ops.lean. -/
abbrev Memory := List Host.Cell

/-- A call the block makes to its environment other than reading the clock (R11, R215, R221): what the transport and the
flash store see of it. -/
inductive Call where
  | txSubmit (kind : TxKind) (bytes : List Byte) (n : Word) (timeout : Word)
  | txAbort
  | rxArm (n : Word)
  | rxDisarm
  | flashRead (off n : Word) (ok : Bool)
  | flashWrite (off : Word) (bytes : List Byte) (n : Word) (ok : Bool)
  | flashSize
deriving DecidableEq, Repr

/-- The state. The fields from `phase` to `faults` are table T1 of R21, in its order. The rest is what the rules give the
block's surroundings (R4): the configuration (R6), the clock's last reading (R216), the flash store's answer to a call in
the current tick (R12), the flash byte space (R51), and three fields of the MODEL's own: the environment's moves already
determined, oldest first; the calls the block has made, newest first; and how many free values have been drawn. -/
structure State where
  phase : Phase
  newCbw : Bool
  mbox : Bytes 31
  curTag : Word
  curDtl : Word
  curFlags : Byte
  curLun : Byte
  curCblen : Byte
  curCb : Bytes 16
  hkind : HandlerKind
  xferLen : Word
  flashOff : Word
  xferred : Word
  cswStatus : Byte
  txState : TxState
  txKind : TxKind
  txStart : Word
  txDone : Bool
  rxArmed : Bool
  rxLen : Word
  rxCount : Word
  dataDone : Bool
  rxStart : Word
  senseValid : Bool
  senseKey : BitVec 4
  senseAsc : Byte
  senseAscq : Byte
  buf : Memory
  cswBuf : Bytes 13
  faults : FaultSet
  cfg : Config
  clock : Word
  flashOk : Bool
  flash : Memory
  pending : List Move
  calls : List Call
  draws : Nat
deriving DecidableEq, Repr

end Sys2Proof.Machine

/-- FREE VALUE. The outcome of draw `k` of a step in a run whose `faults` is not empty: any state at all, or (`none`) no
change (R207, entry 10). -/
opaque Sys2Proof.Config.freeState : Nat → Option Sys2Proof.Machine.State

namespace Sys2Proof.Machine

/-- Why the machine stops with a fault. No reachable state raises one (Safety.lean's invariant rules them out). -/
inductive Fault where
  /-- Raised by a dispatch, a data tick or an `EV_DATA` whose bytes would lie at or beyond index `BUF_BYTES` of `buf`: R52
  gives the buffer no such byte. Safe: the model stops where the spec gives no effect. -/
  | bufferBounds
  /-- Raised by `TickAwait` when the mailbox is full and its signature is wrong: R132 says this never happens and gives no
  effect. Safe. -/
  | mailboxMalformed
deriving DecidableEq, Repr

/-- Why the machine refuses a step. -/
inductive Refusal where
  /-- Raised by `exec` for an instruction that has no meaning yet; no arm does. Safe. -/
  | notModelled (mnemonic : String)
  /-- Raised by `step` under a configuration outside R7, which the spec says is not run. Safe. -/
  | configuration
deriving DecidableEq, Repr

/-- The outcome of one operation. -/
abbrev Result := Host.Outcome State Fault Refusal

/-- The machine at the start of a run (R230, R233), for a configuration, the contents of the flash and the clock's start
value. `mbox`, `buf` and `csw_buf`, which the spec leaves unspecified, are zero here (DESIGN CHOICE, entry 6). -/
def State.boot (cfg : Config) (flash : Memory) (clock : Word) : State where
  phase := .awaitingCbw
  newCbw := false
  mbox := Bytes.fit 31 []
  curTag := 0
  curDtl := 0
  curFlags := 0
  curLun := 0
  curCblen := 0
  curCb := Bytes.fit 16 []
  hkind := .none
  xferLen := 0
  flashOff := 0
  xferred := 0
  cswStatus := 0x00
  txState := .idle
  txKind := .data
  txStart := 0
  txDone := false
  rxArmed := false
  rxLen := 0
  rxCount := 0
  dataDone := false
  rxStart := 0
  senseValid := false
  senseKey := 0x0
  senseAsc := 0x00
  senseAscq := 0x00
  buf := []
  cswBuf := Bytes.fit 13 []
  faults := .empty
  cfg := cfg
  clock := clock
  flashOk := true
  flash := flash
  pending := []
  calls := []
  draws := 0

/-- The machine right after reset: the defaults of R6 with the test configuration's values for the open parameters
(DESIGN CHOICE, entry 4), a flash that lists nothing (entry 7) and the clock at 0 (entry 6). -/
def State.reset : State := State.boot Config.standard [] 0

end Sys2Proof.Machine
end

