-- ==== Sys2Proof/Machine/Flags.lean ====
section
/-! DEFINITION. The flags (R35), the sense latch (R180-R184) and the timeout enforcer's decision (R139, R146). -/

namespace Sys2Proof.Machine

/-! The sense latch: `sense_valid` and the value it guards (R33) -/

/-- `LatchSet(s)`: the last error wins (R181). -/
def State.latchSet (v : Sense) (s : State) : State :=
  { s with senseValid := true, senseKey := v.key, senseAsc := v.asc, senseAscq := v.ascq }

/-- `LatchIfEmpty(s)`: a latch that holds a value is kept (R182). -/
def State.latchIfEmpty (v : Sense) (s : State) : State :=
  if s.senseValid then s else s.latchSet v

/-- `LatchClear()` (R183). -/
def State.latchClear (s : State) : State :=
  { s with senseValid := false, senseKey := 0x0, senseAsc := 0x00, senseAscq := 0x00 }

/-- The value `SensePayload` reports: the latch, or "no sense" when nothing is latched (R33, R184). -/
def State.latchValue (s : State) : Sense :=
  if s.senseValid then ⟨s.senseKey, s.senseAsc, s.senseAscq⟩ else ⟨0x0, 0x00, 0x00⟩

/-! The one-shot flags `new_cbw`, `data_done` and `tx_done`: the interrupt context sets them -/

/-- Post a CBW: `mbox`, then `new_cbw` (R161, R169). -/
def State.postCbw (raw : Bytes 31) (s : State) : State :=
  { s with mbox := raw, newCbw := true }

/-- Record that the submission in flight completed (R165). -/
def State.setTxDone (s : State) : State :=
  { s with txDone := true }

/-- `data_done` is set when the last expected byte has arrived (R163). -/
def State.noteLastByte (s : State) : State :=
  if s.rxCount = s.rxLen then { s with dataDone := true } else s

/-- `Overlap()`: the host has sent a CBW before the previous CSW could have been transmitted (R162). -/
def State.overlap (s : State) : Bool :=
  s.newCbw ||
    match s.phase with
    | .commandPhase | .dataInPhase | .dataOutPhase | .noDataPhase => true
    | .statusPhase => decide (s.txState = .idle)
    | .awaitingCbw | .reserved6 | .reserved7 => false

/-! Ghost faults (R206, R207) -/

/-- `faults` with one name added. -/
def FaultSet.insert (f : GhostFault) (fs : FaultSet) : FaultSet :=
  match f with
  | .cbwOverlap => { fs with cbwOverlap := true }
  | .dataUnexpected => { fs with dataUnexpected := true }
  | .dataOverrun => { fs with dataOverrun := true }
  | .txdoneSpurious => { fs with txdoneSpurious := true }
  | .eventReserved => { fs with eventReserved := true }
  | .badPhase => { fs with badPhase := true }

/-- Whether a name is in the set. -/
def FaultSet.has (f : GhostFault) (fs : FaultSet) : Bool :=
  match f with
  | .cbwOverlap => fs.cbwOverlap
  | .dataUnexpected => fs.dataUnexpected
  | .dataOverrun => fs.dataOverrun
  | .txdoneSpurious => fs.txdoneSpurious
  | .eventReserved => fs.eventReserved
  | .badPhase => fs.badPhase

/-- The names of two sets together. -/
def FaultSet.union (a b : FaultSet) : FaultSet where
  cbwOverlap := a.cbwOverlap || b.cbwOverlap
  dataUnexpected := a.dataUnexpected || b.dataUnexpected
  dataOverrun := a.dataOverrun || b.dataOverrun
  txdoneSpurious := a.txdoneSpurious || b.txdoneSpurious
  eventReserved := a.eventReserved || b.eventReserved
  badPhase := a.badPhase || b.badPhase

/-- `raise Fault(F)`: adds `F` to `faults` and does nothing else (R207). -/
def State.raiseFault (f : GhostFault) (s : State) : State :=
  { s with faults := s.faults.insert f }

/-! The timeout enforcer's decision -/

/-- `Expired(t0, T)`: the elapsed time is taken modulo 2^32 (R146). -/
def State.expired (s : State) (start timeout : Word) : Bool :=
  decide (timeout.toNat ≤ (s.clock - start).toNat)

/-- The enforcer's verdicts (R139). -/
inductive Verdict where
  | done | expired | wait
deriving DecidableEq, Repr

/-- `Verdict(T)`: completion beats expiry (R139, R147). -/
def State.verdict (s : State) (timeout : Word) : Verdict :=
  if s.txDone then .done else if s.expired s.txStart timeout then .expired else .wait

end Sys2Proof.Machine
end

