-- ==== Sys2Proof/Machine/Operands.lean ====
section
/-! DEFINITION. Operand assembly (R80, R120), the data class and next phase of a handler (R27, R134), the payloads (R83-R86) and
the residue (R150). -/

namespace Sys2Proof.Machine

/-! Lengths and offsets -/

/-- `FixedLen(n)`: a fixed payload of `n` bytes is capped by the requested length (R120). -/
def State.fixedLen (s : State) (n : Nat) : Word := BitVec.ofNat 32 (min n s.curDtl.toNat)

/-- `offset = trunc32(lba * BLOCK_SIZE)` (R57, R80). -/
def offsetOf (c : Config) (lba : Word) : Word := BitVec.ofNat 32 (lba.toNat * c.blockSize)

/-- `length = blocks * BLOCK_SIZE` (R80). Where a `BLOCK_SIZE` beyond 65536 makes the product too long for the u32 `xfer_len`
(R21), the spec states no length: it is a free number of blocks, still a multiple of `BLOCK_SIZE` (R58; DESIGN CHOICE,
entry 5). -/
def lengthOf (c : Config) (blocks : Half) : Word :=
  if blocks.toNat * c.blockSize < 2 ^ 32 then BitVec.ofNat 32 (blocks.toNat * c.blockSize)
  else BitVec.ofNat 32 (Config.freeBlockCount c.blockSize blocks * c.blockSize)

/-- `Residue()` (R150). -/
def State.residue (s : State) : Word :=
  if s.xferred.toNat ≤ s.curDtl.toNat then s.curDtl - s.xferred else 0

/-! Handlers -/

/-- The data classes of R27; `unclassed` is the class `none` of the handler kind `NONE`. -/
inductive DataClass where
  | unclassed | noData | dataIn | dataOut
deriving DecidableEq, Repr

/-- `Class(hkind)` (R27, R134). -/
def HandlerKind.dataClass : HandlerKind → DataClass
  | .none => .unclassed
  | .tur => .noData
  | .reqsense => .dataIn
  | .inquiry => .dataIn
  | .modesense6 => .dataIn
  | .readcap10 => .dataIn
  | .read10 => .dataIn
  | .write10 => .dataOut
  | .noop => .noData
  | .invalid => .noData

/-- `PhaseOf(cls)` (R134). The class of `NONE` never reaches it, and has no next phase. -/
def DataClass.phaseOf : DataClass → Option Phase
  | .unclassed => none
  | .noData => some .noDataPhase
  | .dataIn => some .dataInPhase
  | .dataOut => some .dataOutPhase

/-! Payloads -/

/-- `SensePayload()` (R83, R184). -/
def State.sensePayload (s : State) : List Byte :=
  let v := s.latchValue
  [0x70, 0x00, v.key.setWidth 8, 0x00, 0x00, 0x00, 0x00, 0x0A,
   0x00, 0x00, 0x00, 0x00, v.asc, v.ascq, 0x00, 0x00, 0x00, 0x00]

/-- `rc_value` (R86). -/
def readCapacityValue (c : Config) : Nat :=
  match c.readcapMode with
  | .blockCount => c.flashSize / c.blockSize
  | .lastLba => c.flashSize / c.blockSize - 1

/-- The READ CAPACITY(10) payload (R86). -/
def readCapacityPayload (c : Config) : List Byte :=
  wordBE (BitVec.ofNat 32 (readCapacityValue c)) ++ wordBE (BitVec.ofNat 32 c.blockSize)

/-- The CSW of the command in progress (R151). -/
def State.cswOf (s : State) : Bytes 13 := encodeCsw s.curTag s.residue s.cswStatus

/-! The phase register and the tick selector -/

/-- The 3-bit code of a phase (R22). -/
def Phase.code : Phase → BitVec 3
  | .awaitingCbw => 0
  | .commandPhase => 1
  | .dataInPhase => 2
  | .dataOutPhase => 3
  | .noDataPhase => 4
  | .statusPhase => 5
  | .reserved6 => 6
  | .reserved7 => 7

/-- The phase of a 3-bit code (R22). -/
def Phase.ofCode (c : BitVec 3) : Phase :=
  match c.toNat with
  | 0 => .awaitingCbw
  | 1 => .commandPhase
  | 2 => .dataInPhase
  | 3 => .dataOutPhase
  | 4 => .noDataPhase
  | 5 => .statusPhase
  | 6 => .reserved6
  | _ => .reserved7

/-- The sub-state that selects a tick within a phase: `tx_state` in phases 2 and 5, `rx_armed` in phase 3 (R130). -/
def State.subState (s : State) : Bool :=
  match s.phase with
  | .dataInPhase | .statusPhase => decide (s.txState = .pending)
  | .dataOutPhase => s.rxArmed
  | .awaitingCbw | .commandPhase | .noDataPhase | .reserved6 | .reserved7 => false

/-- The 4-bit tick selector: `phase` above the sub-state (R88, R130, opcode table). -/
def State.selector (s : State) : BitVec 4 := s.phase.code ++ BitVec.ofBool s.subState

end Sys2Proof.Machine
end

