-- ==== Sys2Proof/Machine/Ops.lean ====
section
/-! DEFINITION. The named operations: memory in canonical form, the data buffer, the flash store (R55-R57), the transport (R221),
the free values, and an error of a command (R212), the block's only counterpart of taking an exception (R200). -/

namespace Sys2Proof.Machine

/-! Memory -/

/-- What an address that the list does not name reads as: 0 (DESIGN CHOICE, entry 7). -/
def Memory.blank : Byte := 0x00

/-- The canonical form: addresses strictly rising, and no entry equal to what an unlisted address reads as. -/
def Memory.wf (m : Memory) : Bool :=
  decide (m.Pairwise fun c d => c.1 < d.1) && m.all fun c => c.2 != Memory.blank

/-- Every listed address lies below a bound. -/
def Memory.below (bound : Nat) (m : Memory) : Bool := m.all fun c => decide (c.1 < bound)

/-- Read one byte. -/
def Memory.read : Memory → Nat → Byte
  | [], _ => Memory.blank
  | (k, b) :: m, a => if a = k then b else Memory.read m a

/-- Write one byte, keeping the canonical form. -/
def Memory.write : Memory → Nat → Byte → Memory
  | [], a, b => if b = Memory.blank then [] else [(a, b)]
  | (k, c) :: m, a, b =>
    if a < k then (if b = Memory.blank then (k, c) :: m else (a, b) :: (k, c) :: m)
    else if a = k then (if b = Memory.blank then m else (a, b) :: m)
    else (k, c) :: Memory.write m a b

/-- Read `n` bytes, byte `i` at `place (a + i)`. -/
def Memory.readVia (place : Nat → Nat) (m : Memory) (a : Nat) : Nat → List Byte
  | 0 => []
  | n + 1 => Memory.read m (place a) :: Memory.readVia place m (a + 1) n

/-- Write a byte sequence, byte `i` at `place (a + i)`, in rising order of `i`. -/
def Memory.writeVia (place : Nat → Nat) (m : Memory) (a : Nat) : List Byte → Memory
  | [] => m
  | b :: bs => Memory.writeVia place (Memory.write m (place a) b) (a + 1) bs

/-- The canonical form of a list of cells: what it reads as below a bound, and nothing listed from the bound on. -/
def Memory.canonical (bound : Nat) : Memory → Memory
  | [] => []
  | (k, b) :: m => if k < bound then Memory.write (Memory.canonical bound m) k b else Memory.canonical bound m

/-! The data buffer (R52) -/

/-- `buf[at .. ] <- bytes`. -/
def State.storeBuf (start : Nat) (bytes : List Byte) (s : State) : State :=
  { s with buf := Memory.writeVia id s.buf start bytes }

/-- `buf[0..n-1]`. -/
def State.loadBuf (s : State) (n : Nat) : List Byte := Memory.readVia id s.buf 0 n

/-- The step goes on to `t` if the `n` bytes it touches from index 0 upward lie in the buffer; R52 gives the buffer no
other byte. -/
def State.withinBuf (s : State) (n : Nat) (t : State) : Result :=
  if n ≤ s.cfg.bufBytes then .next t else .fault .bufferBounds

/-! Calls to the environment -/

/-- Record a call. -/
def State.call (c : Call) (s : State) : State := { s with calls := c :: s.calls }

/-- `Submit(kind, bytes, n, T)` (R138). -/
def State.submit (kind : TxKind) (bytes : List Byte) (n timeout : Word) (s : State) : State :=
  { s with
    txDone := false, txKind := kind, txStart := s.clock, txState := .pending,
    calls := .txSubmit kind bytes n timeout :: s.calls }

/-- `TxAbort()` and `tx_state <- IDLE` (R148). -/
def State.abort (s : State) : State := { s with txState := .idle, calls := .txAbort :: s.calls }

/-- `tx_done <- 0` and `tx_state <- IDLE`: the submission ended by its completion (R140, R152). -/
def State.finishTx (s : State) : State := { s with txDone := false, txState := .idle }

/-! The flash store -/

/-- Where the first stretch that holds an offset puts it. -/
def placeIn : List FlashRun → Nat → Option Nat
  | [], _ => none
  | r :: runs, a => if r.first ≤ a ∧ a - r.first < r.count then some (r.place + (a - r.first)) else placeIn runs a

/-- `map`: where the flash store resolves a byte offset (R57). An offset below the size is its own place; one at or beyond it
goes where the map supplied puts it, and to a free place where the map holds no place for it (entry 13). -/
def flashPlace (c : Config) (a : Nat) : Nat :=
  match c.flashAddrMap with
  | .modSize => a % c.flashSize
  | .external runs =>
    if a < c.flashSize then a else (placeIn runs a).getD (Config.externalFlashMap c.flashSize a) % c.flashSize

/-- The bytes of a `FlashRead(off, n)` that returns `ok` (R56). -/
def State.flashBytes (s : State) (off : Word) (n : Nat) : List Byte :=
  Memory.readVia (flashPlace s.cfg) s.flash off.toNat n

/-- `n` free bytes, from the draw counter on. -/
def State.freeBytes (s : State) (n : Nat) : List Byte := (List.range n).map fun i => Config.freeByte (s.draws + i)

/-- A `FlashWrite(off, bytes, n)` that returns `ok` (R56). -/
def State.flashStore (off : Word) (bytes : List Byte) (s : State) : State :=
  { s with flash := Memory.writeVia (flashPlace s.cfg) s.flash off.toNat bytes }

/-- A `FlashWrite(off, bytes, n)` that returns `fail`: any value in the range (R56, U8). -/
def State.flashSpoil (off : Word) (n : Nat) (s : State) : State :=
  { s with
    flash := Memory.writeVia (flashPlace s.cfg) s.flash off.toNat (s.freeBytes n), draws := s.draws + n }

/-- One `FlashWrite` call with the answer the environment gives it. -/
def State.flashWrite (off : Word) (bytes : List Byte) (n : Word) (s : State) : State :=
  let t := s.call (.flashWrite off bytes n s.flashOk)
  if s.flashOk then t.flashStore off bytes else t.flashSpoil off n.toNat

/-! A run after a ghost fault -/

/-- One step of a run whose `faults` is not empty (R207): any state. Only what is not the block's own stays: the parameters
(R6), the environment's moves, the calls already made, the names already in `faults`, and the canonical form in which the
two memories are written down. -/
def State.ungoverned (s : State) : State :=
  let free := (Config.freeState s.draws).getD s
  { free with
    buf := Memory.canonical s.cfg.bufBytes free.buf
    flash := Memory.canonical s.cfg.flashSize free.flash
    faults := s.faults.union free.faults
    cfg := s.cfg
    pending := s.pending
    calls := free.calls ++ s.calls
    draws := s.draws + 1 }

/-! An error of a command, and the command's end -/

/-- What an error writes to the latch (R201). -/
inductive LatchWrite where
  | overwrite (v : Sense)
  | ifEmpty (v : Sense)
deriving DecidableEq, Repr

/-- The latch write of an error (R181, R182). -/
def State.latchWrite (w : LatchWrite) (s : State) : State :=
  match w with
  | .overwrite v => s.latchSet v
  | .ifEmpty v => s.latchIfEmpty v

/-- An error of the command in progress (R212): status `Failed`, the latch as R201 says, and for the errors that end a
data stage at once, `phase <- StatusPhase`. Nothing is saved, no mode changes and no vector is fetched. -/
def State.takeError (w : LatchWrite) (toStatus : Bool) (s : State) : State :=
  { s.latchWrite w with
    cswStatus := 0x01, phase := if toStatus then .statusPhase else s.phase }

/-- The end of every command, failed or not (R152, R213): back to `AwaitingCbw`. -/
def State.endCommand (s : State) : State := { s with phase := .awaitingCbw }

end Sys2Proof.Machine
end

