-- ==== Sys2Proof/Machine/Commands.lean ====
section
/-! DEFINITION. The command rows: what `Dispatch` does for each opcode, with the phase change of the command tick (R110-R120,
R133, R134). -/

namespace Sys2Proof.Machine

/-- The opening of `Dispatch`: status `Passed`, no data stage (R110). -/
def State.dispatchStart (s : State) : State :=
  { s with cswStatus := 0x00, xferLen := 0, flashOff := 0 }

/-- Record the handler and enter the phase of its class (R110, R133, R134). -/
def State.enterStage (k : HandlerKind) (s : State) : State :=
  { s with hkind := k, phase := (k.dataClass.phaseOf).getD s.phase }

/-- A handler with a fixed data-in payload: `buf[0..n-1] <- payload`, `xfer_len <- FixedLen(n)` (R112-R115). -/
def State.sendFixed (k : HandlerKind) (payload : List Byte) (s : State) : Result :=
  s.withinBuf payload.length
    ({ s.dispatchStart.storeBuf 0 payload with xferLen := s.fixedLen payload.length }.enterStage k)

/-- `NoOp()` (R116). -/
def State.noOp (s : State) : State := s.dispatchStart.enterStage .noop

/-- `Invalid()` (R119, error E-b of R201). -/
def State.unrecognized (s : State) : State :=
  (s.dispatchStart.takeError (.overwrite s.cfg.senseInvalidOpcode) false).enterStage .invalid

/-- An opcode with no handler of its own: a no-op if `NOOP_OPCODES` holds it, otherwise unrecognized (R81, R92, R110). -/
def State.noOpOrInvalid (opcode : Byte) (s : State) : State :=
  if s.cfg.noopOpcodes.contains opcode then s.noOp else s.unrecognized

/-- A handler of a block transfer: offset and length from the operands, no flash call yet (R117, R118). -/
def State.blockTransfer (k : HandlerKind) (args : BlockArgs) (s : State) : State :=
  { s.dispatchStart with flashOff := offsetOf s.cfg args.lba, xferLen := lengthOf s.cfg args.blocks }.enterStage k

/-- TEST UNIT READY (R111). -/
def execTestUnitReady (_ : Bytes 15) (s : State) : Result :=
  .next ({ s.dispatchStart with cswStatus := if s.senseValid then 0x01 else 0x00 }.enterStage .tur)

/-- REQUEST SENSE (R112). The latch is read here and cleared where the data stage ends. -/
def execRequestSense (_ : Bytes 15) (s : State) : Result :=
  s.sendFixed .reqsense s.sensePayload

/-- INQUIRY (R113). -/
def execInquiry (_ : Bytes 15) (s : State) : Result :=
  s.sendFixed .inquiry s.cfg.inquiryData.toList

/-- MODE SENSE(6) (R114). -/
def execModeSense6 (_ : Bytes 15) (s : State) : Result :=
  s.sendFixed .modesense6 s.cfg.modeSenseData

/-- START STOP UNIT, a member of `NOOP_OPCODES` by default (R116). -/
def execStartStopUnit (_ : Bytes 15) (s : State) : Result :=
  .next (s.noOpOrInvalid 0x1B)

/-- PREVENT ALLOW MEDIUM REMOVAL, a member of `NOOP_OPCODES` by default (R116). -/
def execPreventAllowMediumRemoval (_ : Bytes 15) (s : State) : Result :=
  .next (s.noOpOrInvalid 0x1E)

/-- READ CAPACITY(10) (R115), with its call of `FlashSize()` (R121). -/
def execReadCapacity10 (_ : Bytes 15) (s : State) : Result :=
  (s.call .flashSize).sendFixed .readcap10 (readCapacityPayload s.cfg)

/-- READ(10) (R117). -/
def execRead10 (args : BlockArgs) (s : State) : Result :=
  .next (s.blockTransfer .read10 args)

/-- WRITE(10) (R118). Write-protect is not enforced (R122). -/
def execWrite10 (args : BlockArgs) (s : State) : Result :=
  .next (s.blockTransfer .write10 args)

/-- Any other opcode (R119). -/
def execInvalid (opcode : Byte) (_ : Bytes 15) (s : State) : Result :=
  .next (s.noOpOrInvalid opcode)

end Sys2Proof.Machine
end

