-- ==== Sys2Proof/Machine/Events.lean ====
section
/-! DEFINITION. The interrupt context's operations (R160-R167) and the two outcomes of the wrapper check (R101, R161). -/

namespace Sys2Proof.Machine

/-- What `OnCbw` does with a wrapper whose signature matched: an overlap is a ghost fault, otherwise the CBW is posted
(R161, R162). -/
def State.acceptCbw (raw : Bytes 31) (s : State) : State :=
  if s.overlap then s.raiseFault .cbwOverlap else s.postCbw raw

/-- `OnCbw` for a wrapper whose signature matched (R101, R161). -/
def execCbwValid (c : Cbw) (s : State) : Result :=
  .next (s.acceptCbw (encodeCbw c))

/-- `OnCbw` for a malformed wrapper: dropped, with no state change (R101, R161, R170, R202). -/
def execCbwMalformed (_ : Bytes 31) (s : State) : Result :=
  .next s

/-- `OnReserved` (R167). -/
def execEvReserved (s : State) : Result :=
  .next (s.raiseFault .eventReserved)

/-- `OnCbw` (R161): the signature first, then the overlap. -/
def execEvCbw (raw : Bytes 31) (s : State) : Result :=
  match decodeCbw raw with
  | some _ => .next (s.acceptCbw raw)
  | none => .next s

/-- How many of `len` delivered bytes the reception still takes: `min(len, rx_len - rx_count)` (R163). -/
def State.acceptCount (s : State) (len : Nat) : Nat := min len (s.rxLen.toNat - s.rxCount.toNat)

/-- `OnData` while a reception is armed and not complete: store what is expected, then note an overrun and the last
byte (R163, R164). -/
def State.receive (bytes : List Byte) (s : State) : State :=
  let n := s.acceptCount bytes.length
  let t := { s.storeBuf s.rxCount.toNat (bytes.take n) with rxCount := BitVec.ofNat 32 (s.rxCount.toNat + n) }
  (if n < bytes.length then t.raiseFault .dataOverrun else t).noteLastByte

/-- `OnData` (R163). -/
def execEvData (bytes : List Byte) (s : State) : Result :=
  if s.rxArmed = false ∨ s.dataDone = true then
    if 0 < bytes.length then .next (s.raiseFault .dataUnexpected) else .next s
  else
    let n := s.acceptCount bytes.length
    s.withinBuf (if n = 0 then 0 else s.rxCount.toNat + n) (s.receive bytes)

/-- `OnTxDone` (R165, R166). -/
def execEvTxdone (s : State) : Result :=
  if s.txState = .idle ∨ s.txDone = true then .next (s.raiseFault .txdoneSpurious) else .next s.setTxDone

end Sys2Proof.Machine
end

