-- ==== Sys2Proof/Machine/Reset.lean ====
section
/-! DEFINITION. The reset operation (R230). -/

namespace Sys2Proof.Machine

/-- The unspecified contents of `buf` after a reset: at most `BUF_BYTES` free bytes, in canonical form (R230). -/
def State.freeBuf (s : State) : Memory :=
  Memory.writeVia id [] 0 ((Config.freeBuffer s.draws).take s.cfg.bufBytes)

/-- `reset` (R230, R232): every field of table T1 at its reset value, the unspecified ones free, `faults` kept (R207); no
call to the environment. The 44 draws are those of `mbox` (31) and `csw_buf` (13). -/
def execReset (s : State) : Result :=
  .next { s with
    phase := .awaitingCbw
    newCbw := false, txDone := false, dataDone := false
    curTag := 0, curDtl := 0, curFlags := 0, curLun := 0, curCblen := 0
    curCb := Bytes.fit 16 []
    hkind := .none, xferLen := 0, flashOff := 0, xferred := 0
    cswStatus := 0x00
    txState := .idle, txKind := .data, txStart := 0
    rxArmed := false, rxLen := 0, rxCount := 0, rxStart := 0
    senseValid := false, senseKey := 0x0, senseAsc := 0x00, senseAscq := 0x00
    mbox := Bytes.tabulate 31 fun i => Config.freeByte (s.draws + i)
    buf := s.freeBuf
    cswBuf := Bytes.tabulate 13 fun i => Config.freeByte (s.draws + 31 + i)
    draws := s.draws + 44 }

end Sys2Proof.Machine
end

