-- ==== Sys2Proof/Machine/Ticks.lean ====
section
/-! DEFINITION. The main context's operations: one tick each (R132-R157). -/

namespace Sys2Proof.Machine

/-- Take the CBW of the mailbox: the current-command fields, and every per-command field anew (R132). -/
def State.takeCbw (c : Cbw) (s : State) : State :=
  { s with
    curTag := c.tag, curDtl := c.dtl, curFlags := c.flags, curLun := c.lun, curCblen := c.cblen, curCb := c.cb,
    newCbw := false, hkind := .none, xferLen := 0, flashOff := 0, xferred := 0, cswStatus := 0x00, rxCount := 0,
    phase := .commandPhase }

/-- `TickAwait` (R132). -/
def execTickAwait (s : State) : Result :=
  if s.newCbw then
    match decodeCbw s.mbox with
    | some c => .next (s.takeCbw c)
    | none => .fault .mailboxMalformed
  else .next s

/-- `TickCommand` (R133): `Dispatch` on the opcode of the command taken (R110), then the phase of its class (R134). -/
def execTickCommand (s : State) : Result :=
  match cdbRow (byteAt s.curCb.toList 0) with
  | .testUnitReady => execTestUnitReady (cdbTail s.curCb) s
  | .requestSense => execRequestSense (cdbTail s.curCb) s
  | .inquiry => execInquiry (cdbTail s.curCb) s
  | .modeSense6 => execModeSense6 (cdbTail s.curCb) s
  | .startStopUnit => execStartStopUnit (cdbTail s.curCb) s
  | .preventAllowMediumRemoval => execPreventAllowMediumRemoval (cdbTail s.curCb) s
  | .readCapacity10 => execReadCapacity10 (cdbTail s.curCb) s
  | .read10 => execRead10 (cdbBlockArgs s.curCb) s
  | .write10 => execWrite10 (cdbBlockArgs s.curCb) s
  | .invalid => execInvalid (byteAt s.curCb.toList 0) (cdbTail s.curCb) s

/-- `TickNoData` (R135). -/
def execTickNodata (s : State) : Result :=
  .next { s with xferred := 0, phase := .statusPhase }

/-! Data-in stage -/

/-- `DataInFlashFail` (R137, error E-c1 of R201). -/
def State.dataInFlashFail (s : State) : State :=
  { s.takeError (.overwrite s.cfg.senseMediumRead) true with xferred := 0 }

/-- The latch is cleared when the data stage of a REQUEST SENSE ends without a timeout (R136, R140, R183). -/
def State.clearAfterSense (s : State) : State :=
  if s.hkind = .reqsense then s.latchClear else s

/-- The submission of `buf[0..xfer_len-1]` (R136). -/
def State.submitData (s : State) : State :=
  s.submit .data (s.loadBuf s.xferLen.toNat) s.xferLen s.cfg.tDataMs

/-- A READ(10)'s one `FlashRead` and, on `ok`, the submission of what it read (R136, R155). -/
def State.readThenSubmit (s : State) : Result :=
  let t := s.call (.flashRead s.flashOff s.xferLen s.flashOk)
  if s.flashOk then
    s.withinBuf s.xferLen.toNat (t.storeBuf 0 (s.flashBytes s.flashOff s.xferLen.toNat)).submitData
  else .next t.dataInFlashFail

/-- `TickDataInStart` (R136). -/
def execTickDinStart (s : State) : Result :=
  if s.xferLen = 0 then .next { s.clearAfterSense with xferred := 0, phase := .statusPhase }
  else if s.hkind = .read10 then s.readThenSubmit
  else s.withinBuf s.xferLen.toNat s.submitData

/-- The end of a data-in stage by timeout (R140, error E-d1 of R201). -/
def State.dataInTimeout (s : State) : State :=
  { s.abort.takeError (.ifEmpty s.cfg.senseDataTimeout) true with xferred := 0 }

/-- `TickDataInWait` (R140). -/
def execTickDinWait (s : State) : Result :=
  match s.verdict s.cfg.tDataMs with
  | .wait => .next s
  | .done => .next { s.finishTx.clearAfterSense with xferred := s.xferLen, phase := .statusPhase }
  | .expired => .next s.dataInTimeout

/-! Data-out stage -/

/-- `TickDataOutArm` (R141). -/
def execTickDoutArm (s : State) : Result :=
  if s.xferLen = 0 then .next { s with xferred := 0, phase := .statusPhase }
  else
    .next ({ s with
      rxLen := s.xferLen, rxCount := 0, dataDone := false, rxStart := s.clock, rxArmed := true }.call (.rxArm s.xferLen))

/-- `DataOutFlashFail` (R144, error E-c2 of R201). -/
def State.dataOutFlashFail (s : State) : State :=
  s.takeError (.overwrite s.cfg.senseMediumWrite) false

/-- The end of a reception whose bytes all arrived: one `FlashWrite`, then the status stage (R142, R155). -/
def State.finishReception (s : State) : State :=
  let t := { s with dataDone := false, rxArmed := false }
  let u := { t.flashWrite s.flashOff (s.loadBuf s.xferLen.toNat) s.xferLen with xferred := s.rxCount }
  { (if s.flashOk then u else u.dataOutFlashFail) with phase := .statusPhase }

/-- `DataOutTimeout` (R143, error E-d3 of R201). -/
def State.dataOutTimeout (s : State) : State :=
  { ({ s with rxArmed := false }.call .rxDisarm).takeError (.ifEmpty s.cfg.senseDataTimeout) true with
    xferred := s.rxCount }

/-- Whether a configured reception timeout has passed; `T_DOUT_MS = NONE` never has (R142, R145). -/
def State.receptionExpired (s : State) : Bool :=
  match s.cfg.tDoutMs with
  | none => false
  | some timeout => s.expired s.rxStart timeout

/-- `TickDataOutWait` (R142). -/
def execTickDoutWait (s : State) : Result :=
  if s.dataDone then s.withinBuf s.xferLen.toNat s.finishReception
  else if s.receptionExpired then .next s.dataOutTimeout
  else .next s

/-! Status stage -/

/-- `TickStatusStart` (R151). -/
def execTickStsStart (s : State) : Result :=
  let csw := s.cswOf
  .next ({ s with cswBuf := csw }.submit .csw csw.toList 13 s.cfg.tCswMs)

/-- `TickStatusWait` (R152). -/
def execTickStsWait (s : State) : Result :=
  match s.verdict s.cfg.tCswMs with
  | .wait => .next s
  | .done => .next s.finishTx.endCommand
  | .expired => .next s.abort.endCommand

/-- `TickBadPhase` (R157): the record, and the sequencer stuck. -/
def execTickBad (s : State) : Result :=
  .next (s.raiseFault .badPhase)

end Sys2Proof.Machine
end

