-- ==== Sys2Proof/Machine/Dispatch.lean ====
section
/-! DEFINITION. One arm per row of the opcode table, each one direct call of its meaning. -/

namespace Sys2Proof.Machine

def exec (i : Instr) (s : State) : Host.Outcome State Fault Refusal :=
  match i with
  | .testUnitReady tail => Sys2Proof.Machine.execTestUnitReady tail s
  | .requestSense tail => Sys2Proof.Machine.execRequestSense tail s
  | .inquiry tail => Sys2Proof.Machine.execInquiry tail s
  | .modeSense6 tail => Sys2Proof.Machine.execModeSense6 tail s
  | .startStopUnit tail => Sys2Proof.Machine.execStartStopUnit tail s
  | .preventAllowMediumRemoval tail => Sys2Proof.Machine.execPreventAllowMediumRemoval tail s
  | .readCapacity10 tail => Sys2Proof.Machine.execReadCapacity10 tail s
  | .read10 args => Sys2Proof.Machine.execRead10 args s
  | .write10 args => Sys2Proof.Machine.execWrite10 args s
  | .invalid opcode tail => Sys2Proof.Machine.execInvalid opcode tail s
  | .cbwValid c => Sys2Proof.Machine.execCbwValid c s
  | .cbwMalformed raw => Sys2Proof.Machine.execCbwMalformed raw s
  | .evReserved => Sys2Proof.Machine.execEvReserved s
  | .evCbw raw => Sys2Proof.Machine.execEvCbw raw s
  | .evData bytes => Sys2Proof.Machine.execEvData bytes s
  | .evTxdone => Sys2Proof.Machine.execEvTxdone s
  | .tickAwait => Sys2Proof.Machine.execTickAwait s
  | .tickCommand => Sys2Proof.Machine.execTickCommand s
  | .tickDinStart => Sys2Proof.Machine.execTickDinStart s
  | .tickDinWait => Sys2Proof.Machine.execTickDinWait s
  | .tickDoutArm => Sys2Proof.Machine.execTickDoutArm s
  | .tickDoutWait => Sys2Proof.Machine.execTickDoutWait s
  | .tickNodata => Sys2Proof.Machine.execTickNodata s
  | .tickStsStart => Sys2Proof.Machine.execTickStsStart s
  | .tickStsWait => Sys2Proof.Machine.execTickStsWait s
  | .tickBad => Sys2Proof.Machine.execTickBad s
  | .reset => Sys2Proof.Machine.execReset s

end Sys2Proof.Machine
end

