-- ==== Sys2Proof/Machine/Fetch.lean ====
section
/-! DEFINITION. Which operation runs next: the environment's move, the instruction it selects, and where an instruction is placed
so that it is the next to run. -/

namespace Sys2Proof.Machine

/-- The environment's next move: the oldest one listed, or a free value where none is (R210). -/
def State.nextMove (s : State) : Move × State :=
  match s.pending with
  | m :: rest => (m, { s with pending := rest })
  | [] => (Config.freeMove s.draws, { s with draws := s.draws + 1 })

/-- What a tick receives from the environment: the clock's new reading (R217) and the flash store's answer (R12). -/
def State.setInputs (elapsed : BitVec 31) (flashOk : Bool) (s : State) : State :=
  { s with clock := s.clock + elapsed.setWidth 32, flashOk := flashOk }

/-- The operation a move makes the block perform, with the state it runs in: power-on runs `reset`; a bus or class reset
runs it only under `RESET_ON_BUS_RESET`, and is otherwise nothing the block sees (R231); an event runs
`StorageOnUsbEvent` (R160); a tick runs `StorageTick`, selected by `phase` and the sub-state (R130). -/
def State.select (m : Move) (s : State) : Option Instr × State :=
  match m with
  | .powerOn => (some .reset, s)
  | .busReset => (if s.cfg.resetOnBusReset then some .reset else none, s)
  | .event e => (some (decodeEvent e), s)
  | .tick elapsed flashOk =>
    let t := s.setInputs elapsed flashOk
    (some (decodeTick t.selector), t)

/-- The next operation, if the next move makes the block perform one, and the state it runs in. Once `faults` is not empty the
outcome is unconstrained (R207): no operation is selected, and the state is a free one. -/
def State.fetch (s : State) : Option Instr × State :=
  let (m, t) := s.nextMove
  if s.faults = .empty then t.select m else (none, t.ungoverned)

/-! Placing an instruction -/

/-- Put a move before all others. -/
def State.pushMove (m : Move) (s : State) : State := { s with pending := m :: s.pending }

/-- Make the next move a tick whose selector is `sel`. -/
def State.placeTick (sel : BitVec 4) (s : State) : State :=
  let p := Phase.ofCode (sel.extractLsb' 1 3)
  let sub := sel.getLsbD 0
  { s with
    phase := p
    txState := match p with
      | .dataInPhase | .statusPhase => if sub then .pending else .idle
      | _ => s.txState
    rxArmed := match p with
      | .dataOutPhase => sub
      | _ => s.rxArmed
    pending := .tick 0 s.flashOk :: s.pending }

/-- Make the next move the command tick of a command block. -/
def State.placeCommand (cdb : List Byte) (s : State) : State :=
  { s with phase := .commandPhase, curCb := Bytes.fit 16 cdb, pending := .tick 0 s.flashOk :: s.pending }

/-- Place an instruction where the very next step runs it: an event as a move, a tick by the phase and sub-state that
select it, a command block as the command taken with its tick, a wrapper as the event that delivers it, and reset as
power-on. -/
def State.place (i : Instr) (s : State) : State :=
  match i with
  | .evReserved => s.pushMove (.event .reserved)
  | .evCbw raw => s.pushMove (.event (.cbw raw))
  | .evData bytes => s.pushMove (.event (.data bytes))
  | .evTxdone => s.pushMove (.event .txDone)
  | _ =>
    match i.format with
    | .cdb => s.placeCommand (encode i)
    | .cbw => s.pushMove (.event (.cbw (Bytes.fit 31 (encode i))))
    | .tick => s.placeTick ((byteAt (encode i) 0).setWidth 4)
    | .event => s
    | .reset => s.pushMove .powerOn

end Sys2Proof.Machine
end

