-- ==== Sys2Proof/Machine/Step.lean ====
section
/-! DEFINITION. One step of the machine: one move of the environment, and the operation it selects. -/

namespace Sys2Proof.Machine

/-- One step. A configuration outside R7 is not run. After a ghost fault the fetch selects nothing and leaves a free state
(R207). A move that the block does not see (a bus reset without `RESET_ON_BUS_RESET`) only passes. -/
def step (s : State) : Host.Outcome State Fault Refusal :=
  if s.cfg.wf then
    match s.fetch with
    | (some i, t) => exec i t
    | (none, t) => .next t
  else .refused .configuration

/-- The state whose very next step runs the instruction that a word of the opcode table stands for; the state itself
where the decoder refuses the word. -/
def State.withFetchWord (s : State) (nbits w : Nat) : State :=
  match decodeTableWord nbits w with
  | some i => s.place i
  | none => s

end Sys2Proof.Machine
end

