-- ==== Sys2Proof/Safety.lean ====
section
/-! DEFINITION. What counts as a safe run: the invariant of the machine, admitted runs, the phase order, and repeated ticks. -/

namespace Sys2Proof.Machine

/-- The invariant that every step keeps: the legal values of table T1 (R21), what each phase has to do with the
submission, the reception and the mailbox (R25, R26, R31, R32, R134), the latch's empty form (R33, R183) and the canonical
form of both memories. -/
structure State.Inv (s : State) : Prop where
  cfg_wf : s.cfg.wf = true
  buf_wf : s.buf.wf = true
  buf_below : s.buf.below s.cfg.bufBytes = true
  flash_wf : s.flash.wf = true
  flash_below : s.flash.below s.cfg.flashSize = true
  phase_legal : s.phase ≠ .reserved6 ∧ s.phase ≠ .reserved7
  status_legal : s.cswStatus = 0x00 ∨ s.cswStatus = 0x01
  status_early : s.phase = .commandPhase ∨ s.phase = .dataInPhase ∨ s.phase = .dataOutPhase → s.cswStatus = 0x00
  mbox_signed : s.newCbw = true → le32 s.mbox.toList 0 = cbwSignature
  mbox_phase : s.newCbw = true → s.phase = .awaitingCbw ∨ (s.phase = .statusPhase ∧ s.txState = .pending)
  tx_stage : s.txState = .pending →
    (s.phase = .dataInPhase ∧ s.txKind = .data) ∨ (s.phase = .statusPhase ∧ s.txKind = .csw)
  tx_done : s.txDone = true → s.txState = .pending
  rx_stage : s.rxArmed = true → s.phase = .dataOutPhase ∧ s.rxLen = s.xferLen ∧ s.xferLen ≠ 0
  rx_count : s.rxCount.toNat ≤ s.rxLen.toNat
  rx_done : s.rxArmed = true → (s.dataDone = true ↔ s.rxCount = s.rxLen)
  rx_idle : s.dataDone = true → s.rxArmed = true
  xfer_fits : s.xferLen.toNat ≤ s.cfg.bufBytes
  rx_fits : s.rxLen.toNat ≤ s.cfg.bufBytes
  off_aligned : s.cfg.blockSize ∣ s.flashOff.toNat
  latch_empty : s.senseValid = false → s.senseKey = 0x0 ∧ s.senseAsc = 0x00 ∧ s.senseAscq = 0x00
  latch_key : s.senseValid = true → s.senseKey ≠ 0x0
  kind_in : s.phase = .dataInPhase → s.hkind.dataClass = .dataIn
  kind_out : s.phase = .dataOutPhase → s.hkind = .write10
  kind_none : s.phase = .noDataPhase → s.hkind.dataClass = .noData ∧ s.xferLen = 0

/-- No ghost fault is recorded: the environment has broken none of its duties so far. A claim about steps and runs takes this
as a premise (R207). -/
def State.admitted (s : State) : Prop := s.faults = .empty

/-- The changes of phase that exist apart from reset (R23). -/
def Phase.follows : Phase → Phase → Bool
  | .awaitingCbw, .commandPhase => true
  | .commandPhase, .dataInPhase => true
  | .commandPhase, .dataOutPhase => true
  | .commandPhase, .noDataPhase => true
  | .dataInPhase, .statusPhase => true
  | .dataOutPhase, .statusPhase => true
  | .noDataPhase, .statusPhase => true
  | .statusPhase, .awaitingCbw => true
  | _, _ => false

/-- While a submission is in flight, the call last made is its `TxSubmit`, and its bytes are still what the buffers hold:
`buf[0..xfer_len-1]` for `DATA`; for `CSW`, `csw_buf`, which is the CSW of the command in progress (R34, R105, R241). -/
def State.InFlight (s : State) : Prop :=
  s.txState = .pending →
    ∃ (bytes : List Byte) (n timeout : Word) (earlier : List Call),
      s.calls = .txSubmit s.txKind bytes n timeout :: earlier ∧
      (s.txKind = .data → n = s.xferLen ∧ bytes = s.loadBuf s.xferLen.toNat) ∧
      (s.txKind = .csw → n = 13 ∧ bytes = s.cswBuf.toList ∧ s.cswBuf = s.cswOf)

/-- One `StorageTick()` with the clock and the flash store's answer as they stand (R130). -/
def tickOnce (s : State) : Result := exec (decodeTick s.selector) s

/-- `k` ticks in a row, no event between them (R90 `settle`). -/
def tickTimes : Nat → State → Result
  | 0, s => .next s
  | k + 1, s =>
    match tickOnce s with
    | .next t => tickTimes k t
    | .fault r => .fault r
    | .refused r => .refused r

end Sys2Proof.Machine
end

