-- ==== Sys2Proof/Certificates/Slice0/Obligations.lean ====
section
/-! DEFINITION. The statements for the provers, from the numbered rules of spec/. A frame is written as a record update: every
field of State that the update does not name is unchanged. Memory is spoken of through `Memory.read`. The fields `pending`, `calls` and
`draws` are the model's own (entries 1, 9, 8): `calls` is the record of the calls that R215 and R221 describe, newest first.
A statement about one operation is that operation's pseudocode, in every state; a statement about steps, runs or several ticks
takes `State.admitted`, no ghost fault so far, as a premise (R207). -/

open Sys2Proof Sys2Proof.Machine

/-! Encoding -/

/-- Decoding what the encoder writes gives the instruction back, for every instruction of the table and every operand
(R71, R79, R81, R87; the byte layout of an event record is the model's, entry 2). -/
def Obligations.DecodeUndoesEncode : Prop :=
  ∀ i : Instr, i.wf = true → decode i.format (encode i) = .ok i

/-- Every byte sequence that the decoder accepts, but for a tick's selector (whose sub-state bit does not count in every
phase), is what the encoder writes for the instruction read, and that instruction is well-formed. -/
def Obligations.EncodeUndoesDecode : Prop :=
  ∀ (f : Format) (bs : List Byte) (i : Instr),
    f ≠ .tick → decode f bs = .ok i → i.format = f ∧ encode i = bs ∧ i.wf = true

/-- Words written out from the encodings of R71, R79, R81 and the F-TICK rows decode to what they stand for. The model's choices
in it: the byte layout of the event record (R87 gives none, entry 2), and that a selector byte above 0x0F is refused (R88 says
nothing of one, entry 19). -/
def Obligations.SampleWordsDecode : Prop :=
  decode .cdb [0x2A, 0, 0, 0, 0, 2, 0, 0, 1, 0, 0, 0, 0, 0, 0, 0] =
      .ok (.write10 { flags := 0, lba := 2, group := 0, blocks := 1, control := 0, rest := Bytes.fit 6 [] }) ∧
    decode .cdb [0x1B, 0, 0, 0, 2, 0, 0, 0, 0, 0, 0, 0, 0, 0, 0, 0] =
      .ok (.startStopUnit (Bytes.fit 15 [0, 0, 0, 2])) ∧
    decode .cbw ([0x55, 0x53, 0x42, 0x43, 0x78, 0x56, 0x34, 0x12, 0x24, 0, 0, 0, 0x80, 0, 6, 0x12, 0, 0, 0, 0x24] ++
        List.replicate 11 0) =
      .ok (.cbwValid { tag := 0x12345678, dtl := 36, flags := 0x80, lun := 0, cblen := 6,
                       cb := Bytes.fit 16 [0x12, 0, 0, 0, 0x24] }) ∧
    decode .event [0x02, 0x02, 0, 0, 0, 0xAB, 0xCD] = .ok (.evData [0xAB, 0xCD]) ∧
    decode .tick [0x0B] = .ok .tickStsWait ∧
    decode .tick [0x10] = .error .selectorBits

/-- `DecodeCbw` accepts exactly the wrappers whose signature matches, whatever else they hold, and reads each field from
its bytes (R71, R72, R101). -/
def Obligations.DecodeCbwReadsLayout : Prop :=
  ∀ raw : Bytes 31,
    (decodeCbw raw = none ↔ le32 raw.toList 0 ≠ 0x43425355) ∧
      ∀ c : Cbw,
        decodeCbw raw = some c ↔
          raw.toList = [0x55, 0x53, 0x42, 0x43] ++ wordLE c.tag ++ wordLE c.dtl ++ [c.flags, c.lun, c.cblen] ++ c.cb.toList

/-- `EncodeCsw` (R75, R103). -/
def Obligations.EncodeCswWritesLayout : Prop :=
  ∀ (tag residue : Word) (status : Byte),
    (encodeCsw tag residue status).toList = [0x55, 0x53, 0x42, 0x53] ++ wordLE tag ++ wordLE residue ++ [status]

/-! The step -/

/-- A step runs the operation that the oldest listed move selects, in the state in which that move is taken off the list and,
for a tick, the clock has advanced and the flash store's answer stands (R130, R160, R217, R231); with no move listed, it is the
step of some one move, which is free (R210; the list is the model's, entry 1). A run with a ghost fault behind it is
`FaultedStepIsFree`'s. -/
def Obligations.StepRunsSelectedOperation : Prop :=
  ∀ (s : State) (rest : List Move),
    s.cfg.wf = true → s.admitted →
      (∀ e, s.pending = .event e :: rest → step s = exec (decodeEvent e) { s with pending := rest }) ∧
      (∀ d ok, s.pending = .tick d ok :: rest →
        step s =
          exec (decodeTick ({ s with pending := rest, clock := s.clock + d.setWidth 32, flashOk := ok } : State).selector)
            { s with pending := rest, clock := s.clock + d.setWidth 32, flashOk := ok }) ∧
      (s.pending = .powerOn :: rest → step s = exec .reset { s with pending := rest }) ∧
      (s.pending = .busReset :: rest →
        step s =
          if s.cfg.resetOnBusReset = true then exec .reset { s with pending := rest }
          else .next { s with pending := rest }) ∧
      (s.pending = [] → ∃ m : Move, step s = step { s with pending := [m], draws := s.draws + 1 })

/-- Once a ghost fault is recorded the outcome is unconstrained (R207): a step selects no operation and leaves a free state. The
model's choice (entry 10): the step goes on, and keeps the parameters, the names in `faults`, the calls already made and the
canonical form of both memories. -/
def Obligations.FaultedStepIsFree : Prop :=
  ∀ s : State,
    s.cfg.wf = true → s.faults ≠ .empty →
      s.fetch.1 = none ∧
        ∃ (t : State) (later : List Call),
          step s = .next t ∧ t.cfg = s.cfg ∧ t.calls = later ++ s.calls ∧ t.faults ≠ .empty ∧
            (∀ f, s.faults.has f = true → t.faults.has f = true) ∧ t.buf.wf = true ∧ t.flash.wf = true

/-- What a tick performs is selected by `phase`, and within phases 2, 3 and 5 by `tx_state` or `rx_armed` (R130). -/
def Obligations.TickSelection : Prop :=
  ∀ s : State,
    decodeTick s.selector =
      match s.phase with
      | .awaitingCbw => .tickAwait
      | .commandPhase => .tickCommand
      | .dataInPhase => if s.txState = .idle then .tickDinStart else .tickDinWait
      | .dataOutPhase => if s.rxArmed = false then .tickDoutArm else .tickDoutWait
      | .noDataPhase => .tickNodata
      | .statusPhase => if s.txState = .idle then .tickStsStart else .tickStsWait
      | .reserved6 => .tickBad
      | .reserved7 => .tickBad

/-- The constraints on a configuration (R7), with R58's bound on `BLOCK_SIZE` and R6's on `BUF_BYTES`. -/
def Sys2Proof.Machine.Admissible (c : Config) : Prop :=
  (∃ k, c.blockSize = 2 ^ k) ∧ c.blockSize ≤ 2 ^ 32 ∧ 65535 * c.blockSize ≤ c.bufBytes ∧
    1 ≤ c.flashSize / c.blockSize ∧ c.flashSize / c.blockSize ≤ 0xFFFFFFFF ∧
    1 ≤ c.modeSenseData.length ∧ c.modeSenseData.length ≤ 255 ∧ (byteAt c.modeSenseData 2).getLsbD 7 = true ∧
    c.senseInvalidOpcode.key ≠ 0 ∧ c.senseMediumRead.key ≠ 0 ∧ c.senseMediumWrite.key ≠ 0 ∧
    c.senseDataTimeout.key ≠ 0 ∧
    ∀ op ∈ ([0x00, 0x03, 0x12, 0x1A, 0x25, 0x28, 0x2A] : List Byte), op ∉ c.noopOpcodes

/-- A configuration outside the constraints is not run: a step is refused for its configuration exactly then (R7). -/
def Obligations.ConfigurationRefused : Prop :=
  ∀ s : State, step s = .refused .configuration ↔ ¬Admissible s.cfg

/-! Commands -/

/-- The command tick runs the handler of the command block taken (R110, R133). -/
def Obligations.CommandTickRunsHandler : Prop :=
  ∀ s : State, exec .tickCommand s = exec (decodeCdb s.curCb) s

/-- The command tick always completes, and every value of `cb[0]` selects the handler of the opcode map and the phase of its
class; only the handler's fields change (R81, R110, R121, R134). -/
def Obligations.OpcodeMapAndDirector : Prop :=
  ∀ s : State,
    s.cfg.wf = true →
      ∃ t : State, exec .tickCommand s = .next t ∧
        t.hkind =
          (let op := byteAt s.curCb.toList 0
           if op = 0x00 then .tur else if op = 0x03 then .reqsense else if op = 0x12 then .inquiry
           else if op = 0x1A then .modesense6 else if op = 0x25 then .readcap10 else if op = 0x28 then .read10
           else if op = 0x2A then .write10 else if op ∈ s.cfg.noopOpcodes then .noop else .invalid) ∧
        t.phase =
          (match t.hkind with
           | .reqsense | .inquiry | .modesense6 | .readcap10 | .read10 => .dataInPhase
           | .write10 => .dataOutPhase
           | .tur | .noop | .invalid | .none => .noDataPhase) ∧
        t.flash = s.flash ∧
        t = { s with
          phase := t.phase, hkind := t.hkind, xferLen := t.xferLen, flashOff := t.flashOff, cswStatus := t.cswStatus,
          senseValid := t.senseValid, senseKey := t.senseKey, senseAsc := t.senseAsc, senseAscq := t.senseAscq,
          buf := t.buf, calls := t.calls }

/-- TEST UNIT READY (R111): `Failed` exactly when a sense is latched; the latch is not written; the residue is `dtl`. -/
def Obligations.TestUnitReadyReportsLatch : Prop :=
  ∀ (tail : Bytes 15) (s : State),
    exec (.testUnitReady tail) s =
        .next { s with
          hkind := .tur, cswStatus := if s.senseValid then 0x01 else 0x00, xferLen := 0, flashOff := 0,
          phase := .noDataPhase } ∧
      ∀ t, exec (.testUnitReady tail) s = .next t → ∃ u, exec .tickNodata t = .next u ∧ u.residue = s.curDtl

/-- A handler `i` of kind `k` answers with a fixed data-in payload: bytes 0 upward of `buf` hold it, the length is capped by
the requested length, the status is `Passed`, and nothing else changes but the record of the calls made. -/
def Sys2Proof.Machine.AnswersWith (i : Instr) (k : HandlerKind) (payload : List Byte) (calls : List Call) (s : State) : Prop :=
  ∃ m : Memory,
    exec i s =
        .next { s with
          hkind := k, cswStatus := 0x00, xferLen := BitVec.ofNat 32 (min payload.length s.curDtl.toNat), flashOff := 0,
          buf := m, phase := .dataInPhase, calls := calls } ∧
      (s.buf.wf = true →
        m.wf = true ∧ ∀ a, m.read a = if a < payload.length then byteAt payload a else s.buf.read a)

/-- REQUEST SENSE (R83, R112, R184): the 18 bytes of the latched sense, or of "no sense"; the latch is kept at dispatch. -/
def Obligations.RequestSenseAnswers : Prop :=
  ∀ (tail : Bytes 15) (s : State),
    s.cfg.wf = true →
      (s.senseValid = true →
        AnswersWith (.requestSense tail) .reqsense
          [0x70, 0x00, s.senseKey.setWidth 8, 0x00, 0x00, 0x00, 0x00, 0x0A, 0x00, 0x00, 0x00, 0x00,
           s.senseAsc, s.senseAscq, 0x00, 0x00, 0x00, 0x00] s.calls s) ∧
      (s.senseValid = false →
        AnswersWith (.requestSense tail) .reqsense
          [0x70, 0x00, 0x00, 0x00, 0x00, 0x00, 0x00, 0x0A, 0x00, 0x00, 0x00, 0x00, 0x00, 0x00, 0x00, 0x00, 0x00, 0x00]
          s.calls s)

/-- INQUIRY and MODE SENSE(6) (R113, R114): the configured bytes, whatever the command block's other bytes ask. -/
def Obligations.InquiryAndModeSenseAnswer : Prop :=
  ∀ (tail : Bytes 15) (s : State),
    s.cfg.wf = true →
      AnswersWith (.inquiry tail) .inquiry s.cfg.inquiryData.toList s.calls s ∧
        AnswersWith (.modeSense6 tail) .modesense6 s.cfg.modeSenseData s.calls s

/-- READ CAPACITY(10) (R86, R115): the block count, or the last LBA, and the block size, big-endian, from one call of
`FlashSize()`. -/
def Obligations.ReadCapacityAnswers : Prop :=
  ∀ (tail : Bytes 15) (s : State),
    s.cfg.wf = true →
      AnswersWith (.readCapacity10 tail) .readcap10
        (wordBE (BitVec.ofNat 32
            (if s.cfg.readcapMode = .blockCount then s.cfg.flashSize / s.cfg.blockSize
             else s.cfg.flashSize / s.cfg.blockSize - 1)) ++
          wordBE (BitVec.ofNat 32 s.cfg.blockSize))
        (.flashSize :: s.calls) s

/-- The members of `NOOP_OPCODES` (R116): `Passed`, no data stage, no other effect; the residue is `dtl`. -/
def Obligations.NoopOpcodesPass : Prop :=
  ∀ (i : Instr) (opcode : Byte) (tail : Bytes 15) (s : State),
    (i = .startStopUnit tail ∧ opcode = 0x1B) ∨ (i = .preventAllowMediumRemoval tail ∧ opcode = 0x1E) ∨
        i = .invalid opcode tail →
      opcode ∈ s.cfg.noopOpcodes →
        exec i s =
            .next { s with hkind := .noop, cswStatus := 0x00, xferLen := 0, flashOff := 0, phase := .noDataPhase } ∧
          ∀ t, exec i s = .next t → ∃ u, exec .tickNodata t = .next u ∧ u.residue = s.curDtl

/-- An opcode that nothing else matches (R119): `Failed`, the latch overwritten with `SENSE_INVALID_OPCODE`, no data stage;
the residue is `dtl`. START STOP UNIT and PREVENT ALLOW are such opcodes where `NOOP_OPCODES` does not hold them. -/
def Obligations.UnrecognizedOpcodeFails : Prop :=
  ∀ (i : Instr) (opcode : Byte) (tail : Bytes 15) (s : State),
    (i = .startStopUnit tail ∧ opcode = 0x1B) ∨ (i = .preventAllowMediumRemoval tail ∧ opcode = 0x1E) ∨
        i = .invalid opcode tail →
      opcode ∉ s.cfg.noopOpcodes →
        exec i s =
            .next { s with
              hkind := .invalid, cswStatus := 0x01, xferLen := 0, flashOff := 0, phase := .noDataPhase,
              senseValid := true, senseKey := s.cfg.senseInvalidOpcode.key, senseAsc := s.cfg.senseInvalidOpcode.asc,
              senseAscq := s.cfg.senseInvalidOpcode.ascq } ∧
          ∀ t, exec i s = .next t → ∃ u, exec .tickNodata t = .next u ∧ u.residue = s.curDtl

/-- READ(10) and WRITE(10) at dispatch (R57, R58, R80, R117, R118): the offset rolls over at 2^32 and stays a multiple of the
block size, the length is not capped by `dtl`, and nothing is compared with the capacity (R123). The length is the exact
product wherever a u32 holds it; beyond, where the spec states none, it is free (the model's choice, entry 5), but a multiple
of the block size that the buffer holds. -/
def Obligations.BlockTransferOperands : Prop :=
  ∀ (args : BlockArgs) (s : State),
    ∃ n : Word,
      exec (.read10 args) s =
          .next { s with
            hkind := .read10, cswStatus := 0x00, flashOff := BitVec.ofNat 32 (args.lba.toNat * s.cfg.blockSize),
            xferLen := n, phase := .dataInPhase } ∧
        exec (.write10 args) s =
          .next { s with
            hkind := .write10, cswStatus := 0x00, flashOff := BitVec.ofNat 32 (args.lba.toNat * s.cfg.blockSize),
            xferLen := n, phase := .dataOutPhase } ∧
        (args.blocks.toNat * s.cfg.blockSize < 2 ^ 32 → n.toNat = args.blocks.toNat * s.cfg.blockSize) ∧
        (s.cfg.wf = true →
          s.cfg.blockSize ∣ n.toNat ∧ n.toNat ≤ s.cfg.bufBytes ∧
            s.cfg.blockSize ∣ (BitVec.ofNat 32 (args.lba.toNat * s.cfg.blockSize)).toNat)

/-- `map` is an argument of the model (R57): modulo the size under `ModSize`; otherwise every map of the offsets from the size
up to any bound can be supplied, and an offset below the size is its own place (entry 13). -/
def Obligations.FlashMapIsAnArgument : Prop :=
  (∀ (c : Config) (a : Nat), c.flashAddrMap = .modSize → flashPlace c a = a % c.flashSize) ∧
    ∀ (size bound : Nat) (map : Nat → Nat),
      (∀ a, map a < size) →
        ∃ runs : List FlashRun,
          ∀ c : Config, c.flashSize = size → c.flashAddrMap = .external runs →
            (∀ a < size, flashPlace c a = a) ∧ ∀ a, size ≤ a → a < bound → flashPlace c a = map a

/-! Events -/

/-- A well-formed CBW that overlaps nothing is posted to the mailbox, by either row (R161). -/
def Obligations.CbwPosted : Prop :=
  ∀ (raw : Bytes 31) (c : Cbw) (s : State),
    s.newCbw = false →
      s.phase = .awaitingCbw ∨ (s.phase = .statusPhase ∧ s.txState = .pending) →
        decodeCbw raw = some c →
          exec (.evCbw raw) s = .next { s with mbox := raw, newCbw := true } ∧
            exec (.cbwValid c) s = .next { s with mbox := raw, newCbw := true }

/-- A well-formed CBW that overlaps the command before it is recorded as a ghost fault and leaves everything else (R162). -/
def Obligations.CbwOverlapRecorded : Prop :=
  ∀ (raw : Bytes 31) (c : Cbw) (s : State),
    s.newCbw = true ∨ s.phase = .commandPhase ∨ s.phase = .dataInPhase ∨ s.phase = .dataOutPhase ∨
        s.phase = .noDataPhase ∨ (s.phase = .statusPhase ∧ s.txState = .idle) →
      decodeCbw raw = some c →
        exec (.evCbw raw) s = .next { s with faults := { s.faults with cbwOverlap := true } } ∧
          exec (.cbwValid c) s = .next { s with faults := { s.faults with cbwOverlap := true } }

/-- A malformed CBW changes nothing, in any state, by either row (R170). -/
def Obligations.MalformedCbwDropped : Prop :=
  ∀ (raw : Bytes 31) (s : State),
    le32 raw.toList 0 ≠ 0x43425355 → exec (.evCbw raw) s = .next s ∧ exec (.cbwMalformed raw) s = .next s

/-- Data delivered to an armed reception (R163, R164): the first bytes that the reception still expects are appended to
`buf`, a surplus is dropped and recorded, and `data_done` is set with the last expected byte. -/
def Obligations.DataAppended : Prop :=
  ∀ (bytes : List Byte) (s : State) (n : Nat),
    s.rxArmed = true → s.dataDone = false → s.rxCount.toNat ≤ s.rxLen.toNat → s.rxLen.toNat ≤ s.cfg.bufBytes →
      n = min bytes.length (s.rxLen.toNat - s.rxCount.toNat) →
        ∃ m : Memory,
          exec (.evData bytes) s =
              .next { s with
                buf := m, rxCount := BitVec.ofNat 32 (s.rxCount.toNat + n),
                dataDone := decide (s.rxCount.toNat + n = s.rxLen.toNat),
                faults := if n < bytes.length then { s.faults with dataOverrun := true } else s.faults } ∧
            (s.buf.wf = true →
              m.wf = true ∧
                ∀ a, m.read a =
                  if s.rxCount.toNat ≤ a ∧ a < s.rxCount.toNat + n then byteAt bytes (a - s.rxCount.toNat)
                  else s.buf.read a)

/-- Data with no reception to take it (R163, R164): dropped and recorded; no bytes at all change nothing, and neither does an
empty delivery to a reception that still expects bytes. -/
def Obligations.UnexpectedDataDropped : Prop :=
  ∀ (bytes : List Byte) (s : State),
    (s.rxArmed = false ∨ s.dataDone = true →
        bytes ≠ [] → exec (.evData bytes) s = .next { s with faults := { s.faults with dataUnexpected := true } }) ∧
      (s.rxArmed = false ∨ s.dataDone = true → exec (.evData []) s = .next s) ∧
      (s.rxArmed = true → s.dataDone = false → s.rxCount.toNat < s.rxLen.toNat → exec (.evData []) s = .next s)

/-- A completion (R165, R166): recorded for the submission in flight; a spurious one is a ghost fault. -/
def Obligations.TxDoneRecorded : Prop :=
  ∀ s : State,
    (s.txState = .pending → s.txDone = false → exec .evTxdone s = .next { s with txDone := true }) ∧
      (s.txState = .idle ∨ s.txDone = true →
        exec .evTxdone s = .next { s with faults := { s.faults with txdoneSpurious := true } })

/-- The reserved event kind (R167) and a tick in a reserved phase (R157) are recorded and change nothing else. -/
def Obligations.ReservedEventAndPhaseRecorded : Prop :=
  ∀ s : State,
    exec .evReserved s = .next { s with faults := { s.faults with eventReserved := true } } ∧
      exec .tickBad s = .next { s with faults := { s.faults with badPhase := true } } ∧
      (s.phase = .reserved6 ∨ s.phase = .reserved7 → decodeTick s.selector = .tickBad)

/-- What the interrupt context may write (R168): `mbox` and `new_cbw`; `buf[rx_count..rx_len-1]` and `rx_count` only while a
reception is armed and not complete; `data_done` and `tx_done`, each only set; `faults`, only added to; and nothing else. -/
def Obligations.IsrWritesOnlyItsFields : Prop :=
  ∀ (i : Instr) (s t : State),
    i.format = .event ∨ i.format = .cbw →
      exec i s = .next t →
        t = { s with
            mbox := t.mbox, newCbw := t.newCbw, buf := t.buf, rxCount := t.rxCount, dataDone := t.dataDone,
            txDone := t.txDone, faults := t.faults } ∧
          (s.newCbw = true → t.newCbw = true) ∧ (s.dataDone = true → t.dataDone = true) ∧
          (s.txDone = true → t.txDone = true) ∧ (∀ f, s.faults.has f = true → t.faults.has f = true) ∧
          (s.rxArmed = false ∨ s.dataDone = true → t.buf = s.buf ∧ t.rxCount = s.rxCount) ∧
          (s.buf.wf = true → ∀ a, a < s.rxCount.toNat ∨ s.rxLen.toNat ≤ a → t.buf.read a = s.buf.read a)

/-! Ticks -/

/-- `TickAwait` (R132): with a CBW in the mailbox, every current-command field and every per-command field anew; with an
empty mailbox, nothing. -/
def Obligations.TickAwaitTakesCbw : Prop :=
  ∀ s : State,
    (s.newCbw = true → le32 s.mbox.toList 0 = 0x43425355 →
        exec .tickAwait s =
          .next { s with
            curTag := le32 s.mbox.toList 4, curDtl := le32 s.mbox.toList 8, curFlags := byteAt s.mbox.toList 12,
            curLun := byteAt s.mbox.toList 13, curCblen := byteAt s.mbox.toList 14,
            curCb := Bytes.fit 16 (s.mbox.toList.drop 15), newCbw := false, hkind := .none, xferLen := 0, flashOff := 0,
            xferred := 0, cswStatus := 0x00, rxCount := 0, phase := .commandPhase }) ∧
      (s.newCbw = false → exec .tickAwait s = .next s)

/-- `TickNoData` (R135): straight to the status stage, with the whole requested length as residue. -/
def Obligations.NoDataGoesToStatus : Prop :=
  ∀ s : State,
    exec .tickNodata s = .next { s with xferred := 0, phase := .statusPhase } ∧
      ({ s with xferred := 0, phase := .statusPhase } : State).residue = s.curDtl

/-- `TickDataInStart` of a READ(10) (R136, R137, R138): one flash call; on `ok` what the flash holds is put into `buf` and
submitted; on `fail` nothing is sent, and the command fails with the latch overwritten. -/
def Obligations.ReadStageStarts : Prop :=
  ∀ s : State,
    s.hkind = .read10 → s.xferLen ≠ 0 →
      (s.flashOk = true → s.xferLen.toNat ≤ s.cfg.bufBytes →
        ∃ (m : Memory) (bytes : List Byte),
          exec .tickDinStart s =
              .next { s with
                buf := m, txDone := false, txKind := .data, txStart := s.clock, txState := .pending,
                calls := .txSubmit .data bytes s.xferLen s.cfg.tDataMs :: .flashRead s.flashOff s.xferLen true :: s.calls } ∧
            bytes.length = s.xferLen.toNat ∧
            (s.buf.wf = true →
              m.wf = true ∧
                ∀ a, if a < s.xferLen.toNat then
                    m.read a = s.flash.read (flashPlace s.cfg (s.flashOff.toNat + a)) ∧ byteAt bytes a = m.read a
                  else m.read a = s.buf.read a)) ∧
      (s.flashOk = false →
        exec .tickDinStart s =
          .next { s with
            senseValid := true, senseKey := s.cfg.senseMediumRead.key, senseAsc := s.cfg.senseMediumRead.asc,
            senseAscq := s.cfg.senseMediumRead.ascq, cswStatus := 0x01, xferred := 0, phase := .statusPhase,
            calls := .flashRead s.flashOff s.xferLen false :: s.calls })

/-- `TickDataInStart` of any other command, or of no bytes (R136, R138): a fixed payload is submitted from `buf`; a stage of
zero bytes makes no call, ends at once, and clears the latch if it is a REQUEST SENSE's (R183). -/
def Obligations.FixedStageStarts : Prop :=
  ∀ s : State,
    (s.hkind ≠ .read10 → s.xferLen ≠ 0 → s.xferLen.toNat ≤ s.cfg.bufBytes →
        ∃ bytes : List Byte,
          exec .tickDinStart s =
              .next { s with
                txDone := false, txKind := .data, txStart := s.clock, txState := .pending,
                calls := .txSubmit .data bytes s.xferLen s.cfg.tDataMs :: s.calls } ∧
            bytes.length = s.xferLen.toNat ∧ ∀ a < s.xferLen.toNat, byteAt bytes a = s.buf.read a) ∧
      (s.hkind ≠ .reqsense → s.xferLen = 0 →
        exec .tickDinStart s = .next { s with xferred := 0, phase := .statusPhase }) ∧
      (s.hkind = .reqsense → s.xferLen = 0 →
        exec .tickDinStart s =
          .next { s with
            xferred := 0, phase := .statusPhase, senseValid := false, senseKey := 0, senseAsc := 0, senseAscq := 0 })

/-- `TickDataInWait` (R139, R140, R146, R147, R148): completion wins over expiry; an expiry fails the command and latches a
sense only if none is latched; otherwise nothing changes. -/
def Obligations.DataInStageEnds : Prop :=
  ∀ s : State,
    (s.txDone = true → s.hkind ≠ .reqsense →
        exec .tickDinWait s =
          .next { s with txDone := false, txState := .idle, xferred := s.xferLen, phase := .statusPhase }) ∧
      (s.txDone = true → s.hkind = .reqsense →
        exec .tickDinWait s =
          .next { s with
            txDone := false, txState := .idle, xferred := s.xferLen, phase := .statusPhase,
            senseValid := false, senseKey := 0, senseAsc := 0, senseAscq := 0 }) ∧
      (s.txDone = false → s.cfg.tDataMs.toNat ≤ (s.clock - s.txStart).toNat → s.senseValid = true →
        exec .tickDinWait s =
          .next { s with
            txState := .idle, xferred := 0, cswStatus := 0x01, phase := .statusPhase, calls := .txAbort :: s.calls }) ∧
      (s.txDone = false → s.cfg.tDataMs.toNat ≤ (s.clock - s.txStart).toNat → s.senseValid = false →
        exec .tickDinWait s =
          .next { s with
            txState := .idle, xferred := 0, cswStatus := 0x01, phase := .statusPhase, calls := .txAbort :: s.calls,
            senseValid := true, senseKey := s.cfg.senseDataTimeout.key, senseAsc := s.cfg.senseDataTimeout.asc,
            senseAscq := s.cfg.senseDataTimeout.ascq }) ∧
      (s.txDone = false → (s.clock - s.txStart).toNat < s.cfg.tDataMs.toNat → exec .tickDinWait s = .next s)

/-- `TickDataOutArm` (R141): reception of the whole length is armed; a stage of zero bytes ends at once. -/
def Obligations.ReceptionArmed : Prop :=
  ∀ s : State,
    (s.xferLen ≠ 0 →
        exec .tickDoutArm s =
          .next { s with
            rxLen := s.xferLen, rxCount := 0, dataDone := false, rxStart := s.clock, rxArmed := true,
            calls := .rxArm s.xferLen :: s.calls }) ∧
      (s.xferLen = 0 → exec .tickDoutArm s = .next { s with xferred := 0, phase := .statusPhase })

/-- `TickDataOutWait` with all bytes received (R142, R144): one flash call, with `buf[0..xfer_len-1]`. On `ok` the flash
holds those bytes and nothing else in it changes; on `fail` the command fails, the latch is overwritten, and outside the
range the flash is as before (inside, any value: R56). Where a transfer longer than the flash maps two bytes to one place,
the later byte stays: R56 gives no order, and that one is the model's choice (entry 14). -/
def Obligations.ReceptionWritten : Prop :=
  ∀ s : State,
    s.dataDone = true → s.xferLen.toNat ≤ s.cfg.bufBytes → s.flash.wf = true →
      (s.flashOk = true →
        ∃ m : Memory,
          exec .tickDoutWait s =
              .next { s with
                dataDone := false, rxArmed := false, xferred := s.rxCount, phase := .statusPhase, flash := m,
                calls := .flashWrite s.flashOff (s.loadBuf s.xferLen.toNat) s.xferLen true :: s.calls } ∧
            m.wf = true ∧
            (∀ a, (∀ i < s.xferLen.toNat, flashPlace s.cfg (s.flashOff.toNat + i) ≠ a) → m.read a = s.flash.read a) ∧
            ∀ i < s.xferLen.toNat,
              (∀ j < s.xferLen.toNat, i < j →
                flashPlace s.cfg (s.flashOff.toNat + j) ≠ flashPlace s.cfg (s.flashOff.toNat + i)) →
              m.read (flashPlace s.cfg (s.flashOff.toNat + i)) = s.buf.read i) ∧
      (s.flashOk = false →
        ∃ (m : Memory) (d : Nat),
          exec .tickDoutWait s =
              .next { s with
                dataDone := false, rxArmed := false, xferred := s.rxCount, phase := .statusPhase, flash := m, draws := d,
                cswStatus := 0x01, senseValid := true, senseKey := s.cfg.senseMediumWrite.key,
                senseAsc := s.cfg.senseMediumWrite.asc, senseAscq := s.cfg.senseMediumWrite.ascq,
                calls := .flashWrite s.flashOff (s.loadBuf s.xferLen.toNat) s.xferLen false :: s.calls } ∧
            m.wf = true ∧
            ∀ a, (∀ i < s.xferLen.toNat, flashPlace s.cfg (s.flashOff.toNat + i) ≠ a) → m.read a = s.flash.read a)

/-- `TickDataOutWait` with bytes still missing (R142, R143): under a configured timeout that has passed, reception is
withdrawn and the command fails with no flash write; otherwise nothing changes, and under `T_DOUT_MS = NONE` never. -/
def Obligations.ReceptionWaitsOrTimesOut : Prop :=
  ∀ s : State,
    s.dataDone = false →
      (s.cfg.tDoutMs = none → exec .tickDoutWait s = .next s) ∧
      ∀ limit, s.cfg.tDoutMs = some limit →
        ((s.clock - s.rxStart).toNat < limit.toNat → exec .tickDoutWait s = .next s) ∧
        (limit.toNat ≤ (s.clock - s.rxStart).toNat → s.senseValid = true →
          exec .tickDoutWait s =
            .next { s with
              rxArmed := false, xferred := s.rxCount, cswStatus := 0x01, phase := .statusPhase,
              calls := .rxDisarm :: s.calls }) ∧
        (limit.toNat ≤ (s.clock - s.rxStart).toNat → s.senseValid = false →
          exec .tickDoutWait s =
            .next { s with
              rxArmed := false, xferred := s.rxCount, cswStatus := 0x01, phase := .statusPhase,
              calls := .rxDisarm :: s.calls, senseValid := true, senseKey := s.cfg.senseDataTimeout.key,
              senseAsc := s.cfg.senseDataTimeout.asc, senseAscq := s.cfg.senseDataTimeout.ascq })

/-- `TickStatusStart` (R138, R150, R151): the CSW carries the tag, the clamped residue and the status, and is submitted. -/
def Obligations.CswSubmitted : Prop :=
  ∀ s : State,
    ∃ csw : Bytes 13,
      exec .tickStsStart s =
          .next { s with
            cswBuf := csw, txDone := false, txKind := .csw, txStart := s.clock, txState := .pending,
            calls := .txSubmit .csw csw.toList 13 s.cfg.tCswMs :: s.calls } ∧
        csw.toList =
          [0x55, 0x53, 0x42, 0x53] ++ wordLE s.curTag ++
            wordLE (BitVec.ofNat 32 (s.curDtl.toNat - s.xferred.toNat)) ++ [s.cswStatus]

/-- `TickStatusWait` (R148, R152, R154): both a completion and an expiry lead back to `AwaitingCbw`, and neither touches the
latch or the status; otherwise nothing changes. -/
def Obligations.StatusStageEnds : Prop :=
  ∀ s : State,
    (s.txDone = true →
        exec .tickStsWait s = .next { s with txDone := false, txState := .idle, phase := .awaitingCbw }) ∧
      (s.txDone = false → s.cfg.tCswMs.toNat ≤ (s.clock - s.txStart).toNat →
        exec .tickStsWait s = .next { s with txState := .idle, phase := .awaitingCbw, calls := .txAbort :: s.calls }) ∧
      (s.txDone = false → (s.clock - s.txStart).toNat < s.cfg.tCswMs.toNat → exec .tickStsWait s = .next s)

/-- `reset` (R230, R232): every field of table T1 at its reset value, `mbox`, `buf` and `csw_buf` at any value, `faults` and
the flash kept, no call made. -/
def Obligations.ResetWritesTable : Prop :=
  ∀ s : State,
    ∃ (mbox : Bytes 31) (buf : Memory) (csw : Bytes 13) (d : Nat),
      exec .reset s =
        .next { s with
          phase := .awaitingCbw, newCbw := false, txDone := false, dataDone := false, mbox := mbox,
          curTag := 0, curDtl := 0, curFlags := 0, curLun := 0, curCblen := 0,
          curCb := ⟨List.replicate 16 0, rfl⟩, hkind := .none, xferLen := 0, flashOff := 0, xferred := 0,
          cswStatus := 0x00, txState := .idle, txKind := .data, txStart := 0, rxArmed := false, rxLen := 0,
          rxCount := 0, rxStart := 0, senseValid := false, senseKey := 0x0, senseAsc := 0x00, senseAscq := 0x00,
          buf := buf, cswBuf := csw, draws := d }

/-! The timeout enforcer, the residue and the sense latch -/

/-- The elapsed time is taken modulo 2^32, so a wrap of the clock does no harm (R146): for a start `t0` and `e` milliseconds
later, below 2^32, the deadline `T` has passed exactly when `T ≤ e`. -/
def Obligations.ExpiryAcrossClockWrap : Prop :=
  ∀ (s : State) (t0 T : Word) (e : Nat),
    e < 2 ^ 32 → s.clock = BitVec.ofNat 32 (t0.toNat + e) → (s.expired t0 T = true ↔ T.toNat ≤ e)

/-- `Residue()` is the requested less the transferred length, clamped at 0 (R150). -/
def Obligations.ResidueClamped : Prop :=
  ∀ s : State, s.residue.toNat = s.curDtl.toNat - s.xferred.toNat

/-- `LatchSet`, `LatchIfEmpty` and `LatchClear` (R181, R182, R183): the last error wins; a value is not displaced by a
timeout; clearing leaves "no sense". Nothing but the latch changes. -/
def Obligations.LatchOperations : Prop :=
  ∀ (v : Sense) (s : State),
    s.latchSet v = { s with senseValid := true, senseKey := v.key, senseAsc := v.asc, senseAscq := v.ascq } ∧
      (s.senseValid = true → s.latchIfEmpty v = s) ∧
      (s.senseValid = false →
        s.latchIfEmpty v = { s with senseValid := true, senseKey := v.key, senseAsc := v.asc, senseAscq := v.ascq }) ∧
      s.latchClear = { s with senseValid := false, senseKey := 0, senseAsc := 0, senseAscq := 0 }

/-- Which ticks write the latch, and what (R180, R185): an unrecognized opcode and a failed flash call overwrite it, a timeout
of a data stage fills it only if it is empty, the end of a REQUEST SENSE's data stage clears it, and no other tick writes
it. -/
def Obligations.LatchWriters : Prop :=
  ∀ s t : State,
    s.Inv → tickOnce s = .next t →
      (t.senseValid = s.senseValid ∧ t.senseKey = s.senseKey ∧ t.senseAsc = s.senseAsc ∧ t.senseAscq = s.senseAscq) ∨
      (t.senseValid = true ∧
        ((s.phase = .commandPhase ∧ t.hkind = .invalid ∧
            (⟨t.senseKey, t.senseAsc, t.senseAscq⟩ : Sense) = s.cfg.senseInvalidOpcode) ∨
          (s.phase = .dataInPhase ∧ s.hkind = .read10 ∧ s.flashOk = false ∧
            (⟨t.senseKey, t.senseAsc, t.senseAscq⟩ : Sense) = s.cfg.senseMediumRead) ∨
          (s.phase = .dataOutPhase ∧ s.dataDone = true ∧ s.flashOk = false ∧
            (⟨t.senseKey, t.senseAsc, t.senseAscq⟩ : Sense) = s.cfg.senseMediumWrite) ∨
          ((s.phase = .dataInPhase ∨ s.phase = .dataOutPhase) ∧ s.senseValid = false ∧ t.cswStatus = 0x01 ∧
            (⟨t.senseKey, t.senseAsc, t.senseAscq⟩ : Sense) = s.cfg.senseDataTimeout))) ∨
      (t.senseValid = false ∧ s.phase = .dataInPhase ∧ s.hkind = .reqsense ∧ t.phase = .statusPhase ∧
        t.cswStatus = 0x00)

/-- Two states hold the same latch. -/
def Sys2Proof.Machine.SameLatch (s t : State) : Prop :=
  t.senseValid = s.senseValid ∧ t.senseKey = s.senseKey ∧ t.senseAsc = s.senseAsc ∧ t.senseAscq = s.senseAscq

/-- The life of a sense (R186): after an unrecognized opcode, a REQUEST SENSE answers with its non-zero key; when the data
stage of that REQUEST SENSE completes, the next REQUEST SENSE answers key 0; if the data stage expires instead, the next
one answers the same key again. Between these operations the latch is only required to stand. -/
def Obligations.SenseReportedOnce : Prop :=
  ∀ (opcode : Byte) (tail tail' tail'' : Bytes 15) (s t u : State),
    s.cfg.wf = true → opcode ∉ s.cfg.noopOpcodes → exec (.invalid opcode tail) s = .next t →
      SameLatch t u → u.cfg = s.cfg → u.buf.wf = true →
        t.cswStatus = 0x01 ∧
        ∃ v, exec (.requestSense tail') u = .next v ∧
          v.buf.read 2 = s.cfg.senseInvalidOpcode.key.setWidth 8 ∧ v.buf.read 2 ≠ 0 ∧
          ∀ w x y, SameLatch v w → w.hkind = .reqsense → w.cfg = s.cfg → exec .tickDinWait w = .next x →
            SameLatch x y → y.cfg = s.cfg → y.buf.wf = true →
              ∃ z, exec (.requestSense tail'') y = .next z ∧
                (w.txDone = true → z.buf.read 2 = 0) ∧
                (w.txDone = false → z.buf.read 2 = s.cfg.senseInvalidOpcode.key.setWidth 8)

/-! Invariants -/

/-- The machine starts in the invariant, under every admitted configuration, flash contents and clock (R21, R230, R233), and
so does `State.reset`; no ghost fault is recorded there. -/
def Obligations.InvAtBoot : Prop :=
  (∀ (cfg : Config) (flash : Memory) (clock : Word),
      cfg.wf = true → flash.wf = true → flash.below cfg.flashSize = true →
        (State.boot cfg flash clock).Inv ∧ (State.boot cfg flash clock).admitted) ∧
    State.reset.Inv ∧ State.reset.admitted

/-- Every step of a run with no ghost fault so far keeps the invariant, whatever the environment does in it (R21, R22, R25, R26,
R58, R207). -/
def Obligations.StepKeepsInv : Prop :=
  ∀ s t : State, s.Inv → s.admitted → step s = .next t → t.Inv

/-- The representation both memories are written in, which every step keeps in every state, faulted or not: the canonical form,
and no byte listed beyond `BUF_BYTES` or `FlashSize()` (R51, R52; the form is the model's own, entry 7). -/
def Obligations.MemoriesStayCanonical : Prop :=
  ∀ s t : State,
    s.buf.wf = true → s.buf.below s.cfg.bufBytes = true → s.flash.wf = true → s.flash.below s.cfg.flashSize = true →
      step s = .next t →
        t.buf.wf = true ∧ t.buf.below t.cfg.bufBytes = true ∧ t.flash.wf = true ∧ t.flash.below t.cfg.flashSize = true

/-- The machine never stops: from every state of the invariant with no ghost fault so far, a run of any length has all its steps,
or has them up to the first step that records one, and is then still in the invariant, whatever the environment does ("never
as a local panic/abort", R200; of what follows a ghost fault R207 claims nothing). -/
def Obligations.MachineNeverStops : Prop :=
  ∀ (k : Nat) (s : State),
    s.Inv → s.admitted →
      ∃ j ≤ k, ∃ t : State, Host.Core.run Sys2Proof.core j s = .next t ∧ t.Inv ∧ (j = k ∨ ¬t.admitted)

/-- Phases only move forward, except from `StatusPhase` back to `AwaitingCbw`; no other change of phase exists apart from
reset (R23). -/
def Obligations.PhaseOrder : Prop :=
  ∀ s t : State,
    s.Inv → s.admitted → s.fetch.1 ≠ some .reset → step s = .next t → t.phase = s.phase ∨ s.phase.follows t.phase = true

/-- While a submission is in flight, its bytes stay in the buffers as submitted, and a CSW in flight is the CSW of the
command in progress, tag included (R34, R105, R241). -/
def Obligations.BuffersStableInFlight : Prop :=
  (∀ s t : State, s.Inv → s.admitted → s.InFlight → step s = .next t → t.InFlight) ∧
    ∀ s : State, s.Inv → s.InFlight → s.phase = .statusPhase → s.txState = .pending →
      ∃ (bytes : List Byte) (limit : Word) (earlier : List Call),
        s.calls = .txSubmit .csw bytes 13 limit :: earlier ∧ le32 bytes 4 = s.curTag

/-- One command at a time (R24, R156): the current-command fields change only when a CBW is taken from the mailbox, in
`AwaitingCbw`, and then they are that CBW's. -/
def Obligations.OneCommandAtATime : Prop :=
  ∀ s t : State,
    s.Inv → s.admitted → s.fetch.1 ≠ some .reset → step s = .next t →
      (t.curTag = s.curTag ∧ t.curDtl = s.curDtl ∧ t.curFlags = s.curFlags ∧ t.curLun = s.curLun ∧
          t.curCblen = s.curCblen ∧ t.curCb = s.curCb) ∨
        (s.phase = .awaitingCbw ∧ s.newCbw = true ∧ t.phase = .commandPhase ∧ t.newCbw = false ∧
          decodeCbw s.mbox =
            some { tag := t.curTag, dtl := t.curDtl, flags := t.curFlags, lun := t.curLun, cblen := t.curCblen,
                   cb := t.curCb })

/-- Ghost faults are never cleared, not even by reset and in no run (R207), and `F_BAD_PHASE` is never raised from the invariant
(R157) while no other ghost fault stands. -/
def Obligations.GhostFaultsOnlyGrow : Prop :=
  ∀ s t : State,
    step s = .next t →
      (∀ f, s.faults.has f = true → t.faults.has f = true) ∧
        (s.Inv → s.admitted → t.faults.badPhase = false)

/-- The main context's side of the handoff (R26, R64, R168): a tick only clears the three one-shot flags, never writes the
mailbox or a ghost fault other than `F_BAD_PHASE`, and writes `rx_count` only while no reception is armed. -/
def Obligations.TicksOnlyClearFlags : Prop :=
  ∀ s t : State,
    s.Inv → tickOnce s = .next t →
      (t.newCbw = true → s.newCbw = true) ∧ (t.txDone = true → s.txDone = true) ∧
        (t.dataDone = true → s.dataDone = true) ∧ t.mbox = s.mbox ∧ (s.rxArmed = true → t.rxCount = s.rxCount) ∧
        { t.faults with badPhase := s.faults.badPhase } = s.faults

/-- No host command and no entry point writes a configuration field (R36), and `FlashSize()` is fixed for the run (R233). -/
def Obligations.ConfigurationFixed : Prop :=
  ∀ (k : Nat) (s t : State), Host.Core.run Sys2Proof.core k s = .next t → t.cfg = s.cfg

/-- Only the tick that ends a WRITE(10)'s reception touches the flash, and only in the range of its one call (R51, R121, R155,
R168). -/
def Obligations.FlashWrittenOnlyByWrite : Prop :=
  ∀ s t : State,
    s.admitted → step s = .next t → s.flash.wf = true →
      t.flash = s.flash ∨
        (s.phase = .dataOutPhase ∧ s.rxArmed = true ∧ s.dataDone = true ∧
          ∀ a, (∀ i < s.xferLen.toNat, flashPlace s.cfg (s.flashOff.toNat + i) ≠ a) → t.flash.read a = s.flash.read a)

/-- A WRITE(10)'s bytes are read back (R56): after a successful `FlashWrite` of no more than the flash holds, a successful
`FlashRead` of the same range, from any state with that flash, submits the bytes that were received. -/
def Obligations.WriteThenReadRoundTrip : Prop :=
  ∀ s t u : State,
    s.cfg.wf = true → s.flash.wf = true → s.dataDone = true → s.flashOk = true → s.xferLen.toNat ≤ s.cfg.bufBytes →
      (s.cfg.flashAddrMap = .modSize ∧ s.xferLen.toNat ≤ s.cfg.flashSize) ∨
          s.flashOff.toNat + s.xferLen.toNat ≤ s.cfg.flashSize →
        exec .tickDoutWait s = .next t →
          u.cfg = t.cfg → u.flash = t.flash → u.buf.wf = true → u.hkind = .read10 → u.flashOff = s.flashOff →
            u.xferLen = s.xferLen → s.xferLen ≠ 0 → u.flashOk = true →
              ∃ (v : State) (earlier : List Call),
                exec .tickDinStart u = .next v ∧
                  v.calls = .txSubmit .data (s.loadBuf s.xferLen.toNat) s.xferLen s.cfg.tDataMs :: earlier

/-! Time and progress -/

/-- A tick that finds nothing to do changes no field and makes no call (R131): an empty mailbox, a wait with neither a
completion nor an expiry, a reception with neither its last byte nor an expiry. -/
def Obligations.IdleTicksChangeNothing : Prop :=
  ∀ s : State,
    (s.phase = .awaitingCbw ∧ s.newCbw = false) ∨
      (s.phase = .dataInPhase ∧ s.txState = .pending ∧ s.verdict s.cfg.tDataMs = .wait) ∨
      (s.phase = .statusPhase ∧ s.txState = .pending ∧ s.verdict s.cfg.tCswMs = .wait) ∨
      (s.phase = .dataOutPhase ∧ s.rxArmed = true ∧ s.dataDone = false ∧
        ∀ limit, s.cfg.tDoutMs = some limit → s.expired s.rxStart limit = false) →
      tickOnce s = .next s

/-- `settle` ends (R90): from every state of the invariant, after at most twelve ticks with no event between them and the
clock standing, the next tick changes nothing. -/
def Obligations.SettleEnds : Prop :=
  ∀ s : State, s.Inv → s.admitted → ∃ k ≤ 12, ∃ t : State, tickTimes k s = .next t ∧ tickOnce t = .next t

/-- A silent host cannot wedge the device (R205, R240): a command that has been taken, in whatever phase it stands, is over after
five rounds of ticks with no event between them, and the block awaits the next CBW. In each round the clock advances by at
least every configured timeout, in ticks short enough that no deadline is passed by a whole wrap of the clock (R146), and the
first tick comes before the submission or reception in flight is 2^32 ms old. A command that receives data needs `T_DOUT_MS`
(R142). -/
def Obligations.CommandEndsUnderSilence : Prop :=
  ∀ (s : State) (rounds : List (List (BitVec 31 × Bool))) (rest : List Move),
    s.Inv → s.admitted → s.phase ≠ .awaitingCbw →
      (s.phase = .dataOutPhase ∨ (s.phase = .commandPhase ∧ byteAt s.curCb.toList 0 = 0x2A) → s.cfg.tDoutMs ≠ none) →
        rounds.length = 5 →
          s.pending = rounds.flatten.map (fun p => Move.tick p.1 p.2) ++ rest →
            (∀ r ∈ rounds, r ≠ [] ∧
              ∀ T : Word, T = s.cfg.tDataMs ∨ T = s.cfg.tCswMs ∨ s.cfg.tDoutMs = some T →
                T.toNat ≤ (r.map (·.1.toNat)).sum ∧ ∀ p ∈ r, p.1.toNat + T.toNat ≤ 2 ^ 32) →
              (∀ p ∈ rounds.flatten.head?,
                (s.txState = .pending → (s.clock - s.txStart).toNat + p.1.toNat < 2 ^ 32) ∧
                  (s.rxArmed = true → (s.clock - s.rxStart).toNat + p.1.toNat < 2 ^ 32)) →
                ∃ k ≤ rounds.flatten.length, ∃ t : State,
                  Host.Core.run Sys2Proof.core k s = .next t ∧ t.phase = .awaitingCbw ∧ t.Inv ∧ t.admitted
end

