-- ==== Sys2Proof/Laws/Codec.lean ====
section
/-! SUPPORT. The byte-order helpers undo each other, and the lengths of what the encoder writes. -/

namespace Sys2Proof

@[simp] theorem wordLE_length (v : Word) : (wordLE v).length = 4 := rfl

@[simp] theorem wordBE_length (v : Word) : (wordBE v).length = 4 := rfl

@[simp] theorem halfBE_length (v : Half) : (halfBE v).length = 2 := rfl

/-- Putting a word's four bytes together gives the word. -/
theorem word_of_bytes (v : Word) :
    (v.extractLsb' 24 8 ++ v.extractLsb' 16 8 ++ v.extractLsb' 8 8 ++ v.extractLsb' 0 8 : Word) = v := by
  have h := v.isLt
  apply BitVec.eq_of_toNat_eq
  simp only [BitVec.toNat_append, BitVec.extractLsb'_toNat, Nat.shiftRight_eq_div_pow]
  rw [← Nat.shiftLeft_add_eq_or_of_lt, ← Nat.shiftLeft_add_eq_or_of_lt, ← Nat.shiftLeft_add_eq_or_of_lt]
  · simp only [Nat.shiftLeft_eq]; omega
  all_goals exact Nat.mod_lt _ (by norm_num)

/-- Putting a u16's two bytes together gives the u16. -/
theorem half_of_bytes (v : Half) : (v.extractLsb' 8 8 ++ v.extractLsb' 0 8 : Half) = v := by
  have h := v.isLt
  apply BitVec.eq_of_toNat_eq
  simp only [BitVec.toNat_append, BitVec.extractLsb'_toNat, Nat.shiftRight_eq_div_pow]
  rw [← Nat.shiftLeft_add_eq_or_of_lt]
  · simp only [Nat.shiftLeft_eq]; omega
  all_goals exact Nat.mod_lt _ (by norm_num)

/-- The bytes of four bytes put together are those bytes, the first as the least significant. -/
theorem wordLE_of_bytes (a b c d : Byte) : wordLE (d ++ c ++ b ++ a : Word) = [a, b, c, d] := by
  have ha := a.isLt; have hb := b.isLt; have hc := c.isLt; have hd := d.isLt
  simp only [wordLE, List.cons.injEq, and_true]
  refine ⟨?_, ?_, ?_, ?_⟩ <;> apply BitVec.eq_of_toNat_eq <;>
    simp only [BitVec.toNat_append, BitVec.extractLsb'_toNat, Nat.shiftRight_eq_div_pow] <;>
    rw [← Nat.shiftLeft_add_eq_or_of_lt ha, ← Nat.shiftLeft_add_eq_or_of_lt hb, ← Nat.shiftLeft_add_eq_or_of_lt hc] <;>
    simp only [Nat.shiftLeft_eq] <;> omega

/-- The bytes of four bytes put together are those bytes, the first as the most significant. -/
theorem wordBE_of_bytes (a b c d : Byte) : wordBE (a ++ b ++ c ++ d : Word) = [a, b, c, d] := by
  have := wordLE_of_bytes d c b a
  simp only [wordLE, wordBE, List.cons.injEq, and_true] at this ⊢
  exact ⟨this.2.2.2, this.2.2.1, this.2.1, this.1⟩

theorem halfBE_of_bytes (a b : Byte) : halfBE (a ++ b : Half) = [a, b] := by
  have ha := a.isLt; have hb := b.isLt
  simp only [halfBE, List.cons.injEq, and_true]
  refine ⟨?_, ?_⟩ <;> apply BitVec.eq_of_toNat_eq <;>
    simp only [BitVec.toNat_append, BitVec.extractLsb'_toNat, Nat.shiftRight_eq_div_pow] <;>
    rw [← Nat.shiftLeft_add_eq_or_of_lt hb] <;>
    simp only [Nat.shiftLeft_eq] <;> omega

/-- Reading a little-endian word back from where it was laid. -/
theorem le32_wordLE (before after : List Byte) (v : Word) (i : Nat) (h : before.length = i) :
    le32 (before ++ (wordLE v ++ after)) i = v := by
  subst h
  simp [le32, byteAt, wordLE, word_of_bytes]

/-- Reading a big-endian word back from where it was laid. -/
theorem be32_wordBE (before after : List Byte) (v : Word) (i : Nat) (h : before.length = i) :
    be32 (before ++ (wordBE v ++ after)) i = v := by
  subst h
  simp [be32, byteAt, wordBE, word_of_bytes]

/-- Two sequences of `n` bytes with the same bytes are the same. -/
theorem Bytes.ext_toList {n : Nat} {a b : Bytes n} (h : a.toList = b.toList) : a = b := by
  cases a; cases b; cases h; rfl

/-- A sequence that is long enough already is its own fit. -/
theorem fitList_of_length (bs : List Byte) : fitList bs.length bs = bs := by
  induction bs with
  | nil => rfl
  | cons b bs ih => simp [fitList, ih]

theorem fitList_eq (n : Nat) (bs : List Byte) (h : bs.length = n) : fitList n bs = bs := by
  subst h; exact fitList_of_length bs

@[simp] theorem Bytes.fit_toList (n : Nat) (bs : List Byte) : (Bytes.fit n bs).toList = fitList n bs := rfl

/-- Fitting the bytes of a sequence of exactly `n` bytes gives it back. -/
@[simp] theorem Bytes.fit_self {n : Nat} (b : Bytes n) : Bytes.fit n b.toList = b := by
  obtain ⟨l, hl⟩ := b
  subst hl
  simp [Bytes.fit, fitList_of_length]

/-- Four bytes of a sequence, read as a little-endian word and written out again, are those bytes. -/
theorem wordLE_le32 (bs : List Byte) (i : Nat) (h : i + 4 ≤ bs.length) :
    wordLE (le32 bs i) = (bs.drop i).take 4 := by
  have hlen : ((bs.drop i).take 4).length = 4 := by simp; omega
  rw [le32, wordLE_of_bytes]
  refine List.ext_getElem (by rw [hlen]; rfl) fun k hk hk' => ?_
  have hk4 : k < 4 := by simpa using hk
  interval_cases k <;> simp [byteAt, show i < bs.length by omega, show i + 1 < bs.length by omega,
    show i + 2 < bs.length by omega, show i + 3 < bs.length by omega]

@[simp] theorem blockArgsBytes_length (a : BlockArgs) : (blockArgsBytes a).length = 15 := by
  simp [blockArgsBytes, a.rest.length_eq]

/-- The bytes of a CBW in order (R71). -/
theorem encodeCbw_toList (c : Cbw) :
    (encodeCbw c).toList =
      signatureBytes ++ wordLE c.tag ++ wordLE c.dtl ++ [c.flags, c.lun, c.cblen] ++ c.cb.toList := by
  rw [encodeCbw, Bytes.fit_toList, fitList_eq]
  · rfl
  · simp [c.cb.length_eq]

end Sys2Proof
end

