-- ==== Sys2Proof/Laws/Memory.lean ====
section
/-! SUPPORT. What the memory operations do: the canonical form is kept, a read after a write, and equal reads make equal data. -/

namespace Sys2Proof.Machine

theorem Memory.wf_iff (m : Memory) :
    m.wf = true ↔ m.Pairwise (fun c d => c.1 < d.1) ∧ ∀ c ∈ m, c.2 ≠ Memory.blank := by
  simp [Memory.wf]

theorem Memory.below_iff (bound : Nat) (m : Memory) :
    m.below bound = true ↔ ∀ c ∈ m, c.1 < bound := by
  simp [Memory.below]

@[simp] theorem Memory.wf_nil : Memory.wf [] = true := rfl

@[simp] theorem Memory.below_nil (bound : Nat) : Memory.below bound [] = true := rfl

@[simp] theorem Memory.read_nil (a : Nat) : Memory.read [] a = Memory.blank := rfl

/-- An address that a memory does not list reads as blank. -/
theorem Memory.read_unlisted (m : Memory) (a : Nat) (h : ∀ c ∈ m, c.1 ≠ a) : m.read a = Memory.blank := by
  induction m with
  | nil => rfl
  | cons c m ih =>
    obtain ⟨k, b⟩ := c
    have hk : a ≠ k := fun e => h (k, b) (by simp) e.symm
    simp only [Memory.read, if_neg hk]
    exact ih fun d hd => h d (by simp [hd])

/-- Every cell of a write's result was there before or is the cell written. -/
theorem Memory.mem_write (m : Memory) (a : Nat) (b : Byte) (c : Host.Cell) (h : c ∈ m.write a b) :
    c ∈ m ∨ (c = (a, b) ∧ b ≠ Memory.blank) := by
  induction m with
  | nil =>
    by_cases hb : b = Memory.blank
    · simp [Memory.write, hb] at h
    · exact Or.inr ⟨by simpa [Memory.write, hb] using h, hb⟩
  | cons d m ih =>
    obtain ⟨k, e⟩ := d
    simp only [Memory.write] at h
    split at h
    · split at h
      · exact Or.inl h
      · rename_i hb
        rcases List.mem_cons.1 h with h | h
        · exact Or.inr ⟨h, hb⟩
        · exact Or.inl h
    · split at h
      · split at h
        · exact Or.inl (List.mem_cons_of_mem _ h)
        · rename_i hb
          rcases List.mem_cons.1 h with h | h
          · exact Or.inr ⟨h, hb⟩
          · exact Or.inl (List.mem_cons_of_mem _ h)
      · rcases List.mem_cons.1 h with h | h
        · exact Or.inl (by simp [h])
        · rcases ih h with h | h
          · exact Or.inl (List.mem_cons_of_mem _ h)
          · exact Or.inr h

/-- A write keeps the canonical form. -/
theorem Memory.write_wf (m : Memory) (a : Nat) (b : Byte) (h : m.wf = true) : (m.write a b).wf = true := by
  rw [Memory.wf_iff] at h ⊢
  obtain ⟨hp, hb⟩ := h
  refine ⟨?_, fun c hc => ?_⟩
  · induction m with
    | nil => by_cases hb : b = Memory.blank <;> simp [Memory.write, hb]
    | cons d m ih =>
      obtain ⟨k, e⟩ := d
      have hhead := (List.pairwise_cons.1 hp).1
      have htail := (List.pairwise_cons.1 hp).2
      have hrec := ih htail fun c hc => hb c (List.mem_cons_of_mem _ hc)
      simp only [Memory.write]
      split
      · rename_i hlt
        split
        · exact hp
        · refine List.pairwise_cons.2 ⟨fun c hc => ?_, hp⟩
          rcases List.mem_cons.1 hc with rfl | hc
          · exact hlt
          · exact Nat.lt_trans hlt (hhead c hc)
      · split
        · rename_i heq
          subst heq
          split
          · exact htail
          · exact List.pairwise_cons.2 ⟨hhead, htail⟩
        · rename_i hlt hne
          refine List.pairwise_cons.2 ⟨fun c hc => ?_, hrec⟩
          rcases Memory.mem_write m a b c hc with hc | ⟨rfl, _⟩
          · exact hhead c hc
          · show k < a; omega
  · rcases Memory.mem_write m a b c hc with hc | ⟨rfl, hne⟩
    · exact hb c hc
    · exact hne

/-- A write below a bound keeps the bound. -/
theorem Memory.write_below (bound : Nat) (m : Memory) (a : Nat) (b : Byte) (ha : a < bound)
    (h : m.below bound = true) : (m.write a b).below bound = true := by
  rw [Memory.below_iff] at h ⊢
  intro c hc
  rcases Memory.mem_write m a b c hc with hc | ⟨rfl, _⟩
  · exact h c hc
  · exact ha

/-- In a canonical memory, an address below every listed one reads as blank. -/
theorem Memory.read_head_lt (k : Nat) (e : Byte) (m : Memory) (h : Memory.wf ((k, e) :: m) = true) (a : Nat) (ha : a ≤ k) :
    m.read a = Memory.blank := by
  rw [Memory.wf_iff] at h
  refine Memory.read_unlisted m a fun c hc => ?_
  have := (List.pairwise_cons.1 h.1).1 c hc
  simp only at this
  omega

theorem Memory.wf_tail (c : Host.Cell) (m : Memory) (h : Memory.wf (c :: m) = true) : m.wf = true := by
  rw [Memory.wf_iff] at h ⊢
  exact ⟨(List.pairwise_cons.1 h.1).2, fun d hd => h.2 d (List.mem_cons_of_mem _ hd)⟩

/-- What a read gives after a write: the value written at its address, the old value elsewhere. -/
theorem Memory.read_write (m : Memory) (a : Nat) (b : Byte) (h : m.wf = true) (x : Nat) :
    (m.write a b).read x = if x = a then b else m.read x := by
  induction m with
  | nil =>
    by_cases hb : b = Memory.blank <;> by_cases hx : x = a <;> simp [Memory.write, Memory.read, hb, hx]
  | cons c m ih =>
    obtain ⟨k, e⟩ := c
    have ih := ih (Memory.wf_tail _ _ h)
    have hlow := Memory.read_head_lt k e m h
    simp only [Memory.write]
    split
    · rename_i hlt
      split
      · rename_i hb
        by_cases hx : x = a
        · subst hx
          have : x ≠ k := by omega
          simp [Memory.read, this, hb, hlow x (by omega)]
        · simp [hx]
      · simp [Memory.read]
    · split
      · rename_i heq
        subst heq
        split
        · rename_i hb
          by_cases hx : x = a
          · subst hx; simp [hlow x (le_refl _), hb]
          · simp [Memory.read, hx]
        · by_cases hx : x = a <;> simp [Memory.read, hx]
      · rename_i hlt hne
        by_cases hx : x = k
        · subst hx
          have : x ≠ a := by omega
          simp [Memory.read, this]
        · simp [Memory.read, hx, ih]

theorem Memory.writeVia_wf (place : Nat → Nat) (m : Memory) (a : Nat) (bs : List Byte) (h : m.wf = true) :
    (Memory.writeVia place m a bs).wf = true := by
  induction bs generalizing m a with
  | nil => exact h
  | cons b bs ih => exact ih _ _ (Memory.write_wf _ _ _ h)

theorem Memory.writeVia_below (bound : Nat) (place : Nat → Nat) (m : Memory) (a : Nat) (bs : List Byte)
    (hp : ∀ i < bs.length, place (a + i) < bound) (h : m.below bound = true) :
    (Memory.writeVia place m a bs).below bound = true := by
  induction bs generalizing m a with
  | nil => exact h
  | cons b bs ih =>
    refine ih _ _ (fun i hi => ?_) (Memory.write_below _ _ _ _ (by simpa using hp 0 (by simp)) h)
    have := hp (i + 1) (by simpa using hi)
    rwa [show a + 1 + i = a + (i + 1) by omega]

/-- An address that no byte is written to reads as before. -/
theorem Memory.read_writeVia_other (place : Nat → Nat) (m : Memory) (a : Nat) (bs : List Byte) (h : m.wf = true) (x : Nat)
    (hx : ∀ i < bs.length, place (a + i) ≠ x) : (Memory.writeVia place m a bs).read x = m.read x := by
  induction bs generalizing m a with
  | nil => rfl
  | cons b bs ih =>
    have h0 : x ≠ place a := fun e => hx 0 (by simp) (by simp [e])
    show (Memory.writeVia place (m.write (place a) b) (a + 1) bs).read x = _
    rw [ih _ _ (Memory.write_wf _ _ _ h), Memory.read_write _ _ _ h, if_neg h0]
    intro i hi
    have := hx (i + 1) (by simpa using hi)
    rwa [show a + 1 + i = a + (i + 1) by omega]

/-- A byte written reads as written, where no two bytes of the write have the same place. -/
theorem Memory.read_writeVia_same (place : Nat → Nat) (m : Memory) (a : Nat) (bs : List Byte) (h : m.wf = true)
    (hinj : ∀ i j, i < bs.length → j < bs.length → place (a + i) = place (a + j) → i = j) (i : Nat) (hi : i < bs.length) :
    (Memory.writeVia place m a bs).read (place (a + i)) = bs[i] := by
  induction bs generalizing m a i with
  | nil => simp at hi
  | cons b bs ih =>
    show (Memory.writeVia place (m.write (place a) b) (a + 1) bs).read _ = _
    cases i with
    | zero =>
      rw [Memory.read_writeVia_other _ _ _ _ (Memory.write_wf _ _ _ h), Memory.read_write _ _ _ h]
      · simp
      · intro j hj e
        have := hinj (j + 1) 0 (by simpa using hj) (by simp) (by rw [← e, show a + 1 + j = a + (j + 1) by omega])
        omega
    | succ i =>
      have hi' : i < bs.length := by simpa using hi
      rw [show a + (i + 1) = a + 1 + i by omega, ih _ _ (Memory.write_wf _ _ _ h) _ _ hi']
      · simp
      · intro j k hj hk e
        have := hinj (j + 1) (k + 1) (by simpa using hj) (by simpa using hk)
          (by rw [show a + (j + 1) = a + 1 + j by omega, show a + (k + 1) = a + 1 + k by omega, e])
        omega

@[simp] theorem Memory.readVia_length (place : Nat → Nat) (m : Memory) (a n : Nat) :
    (Memory.readVia place m a n).length = n := by
  induction n generalizing a with
  | zero => rfl
  | succ n ih => simp [Memory.readVia, ih]

/-- Byte `i` of a read is the byte at place `a + i`. -/
theorem Memory.readVia_getElem (place : Nat → Nat) (m : Memory) (a n i : Nat)
    (hi : i < (Memory.readVia place m a n).length) :
    (Memory.readVia place m a n)[i] = m.read (place (a + i)) := by
  induction n generalizing a i with
  | zero => simp [Memory.readVia] at hi
  | succ n ih =>
    cases i with
    | zero => simp [Memory.readVia]
    | succ i =>
      simp only [Memory.readVia, List.getElem_cons_succ]
      rw [ih, show a + 1 + i = a + (i + 1) by omega]

/-- Two reads agree if the bytes do. -/
theorem Memory.readVia_congr (place : Nat → Nat) (m m' : Memory) (a n : Nat)
    (h : ∀ i < n, m.read (place (a + i)) = m'.read (place (a + i))) :
    Memory.readVia place m a n = Memory.readVia place m' a n := by
  refine List.ext_getElem (by simp) fun i hi hi' => ?_
  rw [Memory.readVia_getElem, Memory.readVia_getElem]
  exact h i (by simpa using hi)

/-- Reading back what was written. -/
theorem Memory.readVia_writeVia (place : Nat → Nat) (m : Memory) (a : Nat) (bs : List Byte) (h : m.wf = true)
    (hinj : ∀ i j, i < bs.length → j < bs.length → place (a + i) = place (a + j) → i = j) :
    Memory.readVia place (Memory.writeVia place m a bs) a bs.length = bs := by
  refine List.ext_getElem (by simp) fun i hi hi' => ?_
  rw [Memory.readVia_getElem, Memory.read_writeVia_same _ _ _ _ h hinj _ hi']

/-- Rebuilding a memory cell by cell gives the canonical form. -/
theorem Memory.canonical_wf (bound : Nat) (m : Memory) : (Memory.canonical bound m).wf = true := by
  induction m with
  | nil => rfl
  | cons c m ih =>
    simp only [Memory.canonical]
    split
    · exact Memory.write_wf _ _ _ ih
    · exact ih

/-- Rebuilding a memory lists no address at or beyond the bound. -/
theorem Memory.canonical_below (bound : Nat) (m : Memory) : (Memory.canonical bound m).below bound = true := by
  induction m with
  | nil => rfl
  | cons c m ih =>
    simp only [Memory.canonical]
    split
    · rename_i h; exact Memory.write_below _ _ _ _ h ih
    · exact ih

/-- Rebuilding a memory changes no byte below the bound. -/
theorem Memory.read_canonical (bound : Nat) (m : Memory) (a : Nat) (h : a < bound) :
    (Memory.canonical bound m).read a = m.read a := by
  induction m with
  | nil => rfl
  | cons c m ih =>
    obtain ⟨k, b⟩ := c
    simp only [Memory.canonical, Memory.read]
    split
    · rw [Memory.read_write _ _ _ (Memory.canonical_wf _ _), ih]
    · rename_i hk
      rw [ih, if_neg (by omega)]

/-- Canonical memories that read the same everywhere are the same data. -/
theorem Memory.ext_of_read (m m' : Memory) (h : m.wf = true) (h' : m'.wf = true)
    (hr : ∀ a, m.read a = m'.read a) : m = m' := by
  have nonblank : ∀ (k : Nat) (e : Byte) (t : Memory), Memory.wf ((k, e) :: t) = true → e ≠ Memory.blank := by
    intro k e t hw
    rw [Memory.wf_iff] at hw
    exact hw.2 (k, e) (by simp)
  induction m generalizing m' with
  | nil =>
    cases m' with
    | nil => rfl
    | cons c t =>
      obtain ⟨k, e⟩ := c
      exact absurd (by simpa [Memory.read] using (hr k).symm) (nonblank k e t h')
  | cons c t ih =>
    obtain ⟨k, e⟩ := c
    cases m' with
    | nil => exact absurd (by simpa [Memory.read] using hr k) (nonblank k e t h)
    | cons c' t' =>
      obtain ⟨k', e'⟩ := c'
      have hk : k = k' := by
        rcases Nat.lt_trichotomy k k' with hlt | heq | hgt
        · have := hr k
          have hne : k ≠ k' := by omega
          simp [Memory.read, hne, Memory.read_head_lt k' e' t' h' k (by omega)] at this
          exact absurd this (nonblank k e t h)
        · exact heq
        · have := hr k'
          have hne : k' ≠ k := by omega
          simp [Memory.read, hne, Memory.read_head_lt k e t h k' (by omega)] at this
          exact absurd this.symm (nonblank k' e' t' h')
      subst hk
      have he : e = e' := by simpa [Memory.read] using hr k
      subst he
      congr 1
      refine ih t' (Memory.wf_tail _ _ h) (Memory.wf_tail _ _ h') fun a => ?_
      by_cases ha : a = k
      · subst ha
        rw [Memory.read_head_lt a e t h a (le_refl _), Memory.read_head_lt a e t' h' a (le_refl _)]
      · simpa [Memory.read, ha] using hr a

end Sys2Proof.Machine
end

