-- ==== Sys2Proof/Laws/State.lean ====
section
/-! SUPPORT. What each update of State leaves in each field: one lemma per field per update, true by `rfl`. -/

namespace Sys2Proof.Machine

variable (s : State)

/-! `latchSet` -/

@[simp] theorem State.latchSet_phase (v : Sense) : (s.latchSet v).phase = s.phase := rfl
@[simp] theorem State.latchSet_newCbw (v : Sense) : (s.latchSet v).newCbw = s.newCbw := rfl
@[simp] theorem State.latchSet_mbox (v : Sense) : (s.latchSet v).mbox = s.mbox := rfl
@[simp] theorem State.latchSet_curTag (v : Sense) : (s.latchSet v).curTag = s.curTag := rfl
@[simp] theorem State.latchSet_curDtl (v : Sense) : (s.latchSet v).curDtl = s.curDtl := rfl
@[simp] theorem State.latchSet_curFlags (v : Sense) : (s.latchSet v).curFlags = s.curFlags := rfl
@[simp] theorem State.latchSet_curLun (v : Sense) : (s.latchSet v).curLun = s.curLun := rfl
@[simp] theorem State.latchSet_curCblen (v : Sense) : (s.latchSet v).curCblen = s.curCblen := rfl
@[simp] theorem State.latchSet_curCb (v : Sense) : (s.latchSet v).curCb = s.curCb := rfl
@[simp] theorem State.latchSet_hkind (v : Sense) : (s.latchSet v).hkind = s.hkind := rfl
@[simp] theorem State.latchSet_xferLen (v : Sense) : (s.latchSet v).xferLen = s.xferLen := rfl
@[simp] theorem State.latchSet_flashOff (v : Sense) : (s.latchSet v).flashOff = s.flashOff := rfl
@[simp] theorem State.latchSet_xferred (v : Sense) : (s.latchSet v).xferred = s.xferred := rfl
@[simp] theorem State.latchSet_cswStatus (v : Sense) : (s.latchSet v).cswStatus = s.cswStatus := rfl
@[simp] theorem State.latchSet_txState (v : Sense) : (s.latchSet v).txState = s.txState := rfl
@[simp] theorem State.latchSet_txKind (v : Sense) : (s.latchSet v).txKind = s.txKind := rfl
@[simp] theorem State.latchSet_txStart (v : Sense) : (s.latchSet v).txStart = s.txStart := rfl
@[simp] theorem State.latchSet_txDone (v : Sense) : (s.latchSet v).txDone = s.txDone := rfl
@[simp] theorem State.latchSet_rxArmed (v : Sense) : (s.latchSet v).rxArmed = s.rxArmed := rfl
@[simp] theorem State.latchSet_rxLen (v : Sense) : (s.latchSet v).rxLen = s.rxLen := rfl
@[simp] theorem State.latchSet_rxCount (v : Sense) : (s.latchSet v).rxCount = s.rxCount := rfl
@[simp] theorem State.latchSet_dataDone (v : Sense) : (s.latchSet v).dataDone = s.dataDone := rfl
@[simp] theorem State.latchSet_rxStart (v : Sense) : (s.latchSet v).rxStart = s.rxStart := rfl
@[simp] theorem State.latchSet_senseValid (v : Sense) : (s.latchSet v).senseValid = true := rfl
@[simp] theorem State.latchSet_senseKey (v : Sense) : (s.latchSet v).senseKey = v.key := rfl
@[simp] theorem State.latchSet_senseAsc (v : Sense) : (s.latchSet v).senseAsc = v.asc := rfl
@[simp] theorem State.latchSet_senseAscq (v : Sense) : (s.latchSet v).senseAscq = v.ascq := rfl
@[simp] theorem State.latchSet_buf (v : Sense) : (s.latchSet v).buf = s.buf := rfl
@[simp] theorem State.latchSet_cswBuf (v : Sense) : (s.latchSet v).cswBuf = s.cswBuf := rfl
@[simp] theorem State.latchSet_faults (v : Sense) : (s.latchSet v).faults = s.faults := rfl
@[simp] theorem State.latchSet_cfg (v : Sense) : (s.latchSet v).cfg = s.cfg := rfl
@[simp] theorem State.latchSet_clock (v : Sense) : (s.latchSet v).clock = s.clock := rfl
@[simp] theorem State.latchSet_flashOk (v : Sense) : (s.latchSet v).flashOk = s.flashOk := rfl
@[simp] theorem State.latchSet_flash (v : Sense) : (s.latchSet v).flash = s.flash := rfl
@[simp] theorem State.latchSet_pending (v : Sense) : (s.latchSet v).pending = s.pending := rfl
@[simp] theorem State.latchSet_calls (v : Sense) : (s.latchSet v).calls = s.calls := rfl
@[simp] theorem State.latchSet_draws (v : Sense) : (s.latchSet v).draws = s.draws := rfl

/-! `latchClear` -/

@[simp] theorem State.latchClear_phase : s.latchClear.phase = s.phase := rfl
@[simp] theorem State.latchClear_newCbw : s.latchClear.newCbw = s.newCbw := rfl
@[simp] theorem State.latchClear_mbox : s.latchClear.mbox = s.mbox := rfl
@[simp] theorem State.latchClear_curTag : s.latchClear.curTag = s.curTag := rfl
@[simp] theorem State.latchClear_curDtl : s.latchClear.curDtl = s.curDtl := rfl
@[simp] theorem State.latchClear_curFlags : s.latchClear.curFlags = s.curFlags := rfl
@[simp] theorem State.latchClear_curLun : s.latchClear.curLun = s.curLun := rfl
@[simp] theorem State.latchClear_curCblen : s.latchClear.curCblen = s.curCblen := rfl
@[simp] theorem State.latchClear_curCb : s.latchClear.curCb = s.curCb := rfl
@[simp] theorem State.latchClear_hkind : s.latchClear.hkind = s.hkind := rfl
@[simp] theorem State.latchClear_xferLen : s.latchClear.xferLen = s.xferLen := rfl
@[simp] theorem State.latchClear_flashOff : s.latchClear.flashOff = s.flashOff := rfl
@[simp] theorem State.latchClear_xferred : s.latchClear.xferred = s.xferred := rfl
@[simp] theorem State.latchClear_cswStatus : s.latchClear.cswStatus = s.cswStatus := rfl
@[simp] theorem State.latchClear_txState : s.latchClear.txState = s.txState := rfl
@[simp] theorem State.latchClear_txKind : s.latchClear.txKind = s.txKind := rfl
@[simp] theorem State.latchClear_txStart : s.latchClear.txStart = s.txStart := rfl
@[simp] theorem State.latchClear_txDone : s.latchClear.txDone = s.txDone := rfl
@[simp] theorem State.latchClear_rxArmed : s.latchClear.rxArmed = s.rxArmed := rfl
@[simp] theorem State.latchClear_rxLen : s.latchClear.rxLen = s.rxLen := rfl
@[simp] theorem State.latchClear_rxCount : s.latchClear.rxCount = s.rxCount := rfl
@[simp] theorem State.latchClear_dataDone : s.latchClear.dataDone = s.dataDone := rfl
@[simp] theorem State.latchClear_rxStart : s.latchClear.rxStart = s.rxStart := rfl
@[simp] theorem State.latchClear_senseValid : s.latchClear.senseValid = false := rfl
@[simp] theorem State.latchClear_senseKey : s.latchClear.senseKey = 0x0 := rfl
@[simp] theorem State.latchClear_senseAsc : s.latchClear.senseAsc = 0x00 := rfl
@[simp] theorem State.latchClear_senseAscq : s.latchClear.senseAscq = 0x00 := rfl
@[simp] theorem State.latchClear_buf : s.latchClear.buf = s.buf := rfl
@[simp] theorem State.latchClear_cswBuf : s.latchClear.cswBuf = s.cswBuf := rfl
@[simp] theorem State.latchClear_faults : s.latchClear.faults = s.faults := rfl
@[simp] theorem State.latchClear_cfg : s.latchClear.cfg = s.cfg := rfl
@[simp] theorem State.latchClear_clock : s.latchClear.clock = s.clock := rfl
@[simp] theorem State.latchClear_flashOk : s.latchClear.flashOk = s.flashOk := rfl
@[simp] theorem State.latchClear_flash : s.latchClear.flash = s.flash := rfl
@[simp] theorem State.latchClear_pending : s.latchClear.pending = s.pending := rfl
@[simp] theorem State.latchClear_calls : s.latchClear.calls = s.calls := rfl
@[simp] theorem State.latchClear_draws : s.latchClear.draws = s.draws := rfl

/-! `raiseFault` -/

@[simp] theorem State.raiseFault_phase (f : GhostFault) : (s.raiseFault f).phase = s.phase := rfl
@[simp] theorem State.raiseFault_newCbw (f : GhostFault) : (s.raiseFault f).newCbw = s.newCbw := rfl
@[simp] theorem State.raiseFault_mbox (f : GhostFault) : (s.raiseFault f).mbox = s.mbox := rfl
@[simp] theorem State.raiseFault_curTag (f : GhostFault) : (s.raiseFault f).curTag = s.curTag := rfl
@[simp] theorem State.raiseFault_curDtl (f : GhostFault) : (s.raiseFault f).curDtl = s.curDtl := rfl
@[simp] theorem State.raiseFault_curFlags (f : GhostFault) : (s.raiseFault f).curFlags = s.curFlags := rfl
@[simp] theorem State.raiseFault_curLun (f : GhostFault) : (s.raiseFault f).curLun = s.curLun := rfl
@[simp] theorem State.raiseFault_curCblen (f : GhostFault) : (s.raiseFault f).curCblen = s.curCblen := rfl
@[simp] theorem State.raiseFault_curCb (f : GhostFault) : (s.raiseFault f).curCb = s.curCb := rfl
@[simp] theorem State.raiseFault_hkind (f : GhostFault) : (s.raiseFault f).hkind = s.hkind := rfl
@[simp] theorem State.raiseFault_xferLen (f : GhostFault) : (s.raiseFault f).xferLen = s.xferLen := rfl
@[simp] theorem State.raiseFault_flashOff (f : GhostFault) : (s.raiseFault f).flashOff = s.flashOff := rfl
@[simp] theorem State.raiseFault_xferred (f : GhostFault) : (s.raiseFault f).xferred = s.xferred := rfl
@[simp] theorem State.raiseFault_cswStatus (f : GhostFault) : (s.raiseFault f).cswStatus = s.cswStatus := rfl
@[simp] theorem State.raiseFault_txState (f : GhostFault) : (s.raiseFault f).txState = s.txState := rfl
@[simp] theorem State.raiseFault_txKind (f : GhostFault) : (s.raiseFault f).txKind = s.txKind := rfl
@[simp] theorem State.raiseFault_txStart (f : GhostFault) : (s.raiseFault f).txStart = s.txStart := rfl
@[simp] theorem State.raiseFault_txDone (f : GhostFault) : (s.raiseFault f).txDone = s.txDone := rfl
@[simp] theorem State.raiseFault_rxArmed (f : GhostFault) : (s.raiseFault f).rxArmed = s.rxArmed := rfl
@[simp] theorem State.raiseFault_rxLen (f : GhostFault) : (s.raiseFault f).rxLen = s.rxLen := rfl
@[simp] theorem State.raiseFault_rxCount (f : GhostFault) : (s.raiseFault f).rxCount = s.rxCount := rfl
@[simp] theorem State.raiseFault_dataDone (f : GhostFault) : (s.raiseFault f).dataDone = s.dataDone := rfl
@[simp] theorem State.raiseFault_rxStart (f : GhostFault) : (s.raiseFault f).rxStart = s.rxStart := rfl
@[simp] theorem State.raiseFault_senseValid (f : GhostFault) : (s.raiseFault f).senseValid = s.senseValid := rfl
@[simp] theorem State.raiseFault_senseKey (f : GhostFault) : (s.raiseFault f).senseKey = s.senseKey := rfl
@[simp] theorem State.raiseFault_senseAsc (f : GhostFault) : (s.raiseFault f).senseAsc = s.senseAsc := rfl
@[simp] theorem State.raiseFault_senseAscq (f : GhostFault) : (s.raiseFault f).senseAscq = s.senseAscq := rfl
@[simp] theorem State.raiseFault_buf (f : GhostFault) : (s.raiseFault f).buf = s.buf := rfl
@[simp] theorem State.raiseFault_cswBuf (f : GhostFault) : (s.raiseFault f).cswBuf = s.cswBuf := rfl
@[simp] theorem State.raiseFault_faults (f : GhostFault) : (s.raiseFault f).faults = s.faults.insert f := rfl
@[simp] theorem State.raiseFault_cfg (f : GhostFault) : (s.raiseFault f).cfg = s.cfg := rfl
@[simp] theorem State.raiseFault_clock (f : GhostFault) : (s.raiseFault f).clock = s.clock := rfl
@[simp] theorem State.raiseFault_flashOk (f : GhostFault) : (s.raiseFault f).flashOk = s.flashOk := rfl
@[simp] theorem State.raiseFault_flash (f : GhostFault) : (s.raiseFault f).flash = s.flash := rfl
@[simp] theorem State.raiseFault_pending (f : GhostFault) : (s.raiseFault f).pending = s.pending := rfl
@[simp] theorem State.raiseFault_calls (f : GhostFault) : (s.raiseFault f).calls = s.calls := rfl
@[simp] theorem State.raiseFault_draws (f : GhostFault) : (s.raiseFault f).draws = s.draws := rfl

/-! `postCbw` -/

@[simp] theorem State.postCbw_phase (raw : Bytes 31) : (s.postCbw raw).phase = s.phase := rfl
@[simp] theorem State.postCbw_newCbw (raw : Bytes 31) : (s.postCbw raw).newCbw = true := rfl
@[simp] theorem State.postCbw_mbox (raw : Bytes 31) : (s.postCbw raw).mbox = raw := rfl
@[simp] theorem State.postCbw_curTag (raw : Bytes 31) : (s.postCbw raw).curTag = s.curTag := rfl
@[simp] theorem State.postCbw_curDtl (raw : Bytes 31) : (s.postCbw raw).curDtl = s.curDtl := rfl
@[simp] theorem State.postCbw_curFlags (raw : Bytes 31) : (s.postCbw raw).curFlags = s.curFlags := rfl
@[simp] theorem State.postCbw_curLun (raw : Bytes 31) : (s.postCbw raw).curLun = s.curLun := rfl
@[simp] theorem State.postCbw_curCblen (raw : Bytes 31) : (s.postCbw raw).curCblen = s.curCblen := rfl
@[simp] theorem State.postCbw_curCb (raw : Bytes 31) : (s.postCbw raw).curCb = s.curCb := rfl
@[simp] theorem State.postCbw_hkind (raw : Bytes 31) : (s.postCbw raw).hkind = s.hkind := rfl
@[simp] theorem State.postCbw_xferLen (raw : Bytes 31) : (s.postCbw raw).xferLen = s.xferLen := rfl
@[simp] theorem State.postCbw_flashOff (raw : Bytes 31) : (s.postCbw raw).flashOff = s.flashOff := rfl
@[simp] theorem State.postCbw_xferred (raw : Bytes 31) : (s.postCbw raw).xferred = s.xferred := rfl
@[simp] theorem State.postCbw_cswStatus (raw : Bytes 31) : (s.postCbw raw).cswStatus = s.cswStatus := rfl
@[simp] theorem State.postCbw_txState (raw : Bytes 31) : (s.postCbw raw).txState = s.txState := rfl
@[simp] theorem State.postCbw_txKind (raw : Bytes 31) : (s.postCbw raw).txKind = s.txKind := rfl
@[simp] theorem State.postCbw_txStart (raw : Bytes 31) : (s.postCbw raw).txStart = s.txStart := rfl
@[simp] theorem State.postCbw_txDone (raw : Bytes 31) : (s.postCbw raw).txDone = s.txDone := rfl
@[simp] theorem State.postCbw_rxArmed (raw : Bytes 31) : (s.postCbw raw).rxArmed = s.rxArmed := rfl
@[simp] theorem State.postCbw_rxLen (raw : Bytes 31) : (s.postCbw raw).rxLen = s.rxLen := rfl
@[simp] theorem State.postCbw_rxCount (raw : Bytes 31) : (s.postCbw raw).rxCount = s.rxCount := rfl
@[simp] theorem State.postCbw_dataDone (raw : Bytes 31) : (s.postCbw raw).dataDone = s.dataDone := rfl
@[simp] theorem State.postCbw_rxStart (raw : Bytes 31) : (s.postCbw raw).rxStart = s.rxStart := rfl
@[simp] theorem State.postCbw_senseValid (raw : Bytes 31) : (s.postCbw raw).senseValid = s.senseValid := rfl
@[simp] theorem State.postCbw_senseKey (raw : Bytes 31) : (s.postCbw raw).senseKey = s.senseKey := rfl
@[simp] theorem State.postCbw_senseAsc (raw : Bytes 31) : (s.postCbw raw).senseAsc = s.senseAsc := rfl
@[simp] theorem State.postCbw_senseAscq (raw : Bytes 31) : (s.postCbw raw).senseAscq = s.senseAscq := rfl
@[simp] theorem State.postCbw_buf (raw : Bytes 31) : (s.postCbw raw).buf = s.buf := rfl
@[simp] theorem State.postCbw_cswBuf (raw : Bytes 31) : (s.postCbw raw).cswBuf = s.cswBuf := rfl
@[simp] theorem State.postCbw_faults (raw : Bytes 31) : (s.postCbw raw).faults = s.faults := rfl
@[simp] theorem State.postCbw_cfg (raw : Bytes 31) : (s.postCbw raw).cfg = s.cfg := rfl
@[simp] theorem State.postCbw_clock (raw : Bytes 31) : (s.postCbw raw).clock = s.clock := rfl
@[simp] theorem State.postCbw_flashOk (raw : Bytes 31) : (s.postCbw raw).flashOk = s.flashOk := rfl
@[simp] theorem State.postCbw_flash (raw : Bytes 31) : (s.postCbw raw).flash = s.flash := rfl
@[simp] theorem State.postCbw_pending (raw : Bytes 31) : (s.postCbw raw).pending = s.pending := rfl
@[simp] theorem State.postCbw_calls (raw : Bytes 31) : (s.postCbw raw).calls = s.calls := rfl
@[simp] theorem State.postCbw_draws (raw : Bytes 31) : (s.postCbw raw).draws = s.draws := rfl

/-! `storeBuf` -/

@[simp] theorem State.storeBuf_phase (k : Nat) (bs : List Byte) : (s.storeBuf k bs).phase = s.phase := rfl
@[simp] theorem State.storeBuf_newCbw (k : Nat) (bs : List Byte) : (s.storeBuf k bs).newCbw = s.newCbw := rfl
@[simp] theorem State.storeBuf_mbox (k : Nat) (bs : List Byte) : (s.storeBuf k bs).mbox = s.mbox := rfl
@[simp] theorem State.storeBuf_curTag (k : Nat) (bs : List Byte) : (s.storeBuf k bs).curTag = s.curTag := rfl
@[simp] theorem State.storeBuf_curDtl (k : Nat) (bs : List Byte) : (s.storeBuf k bs).curDtl = s.curDtl := rfl
@[simp] theorem State.storeBuf_curFlags (k : Nat) (bs : List Byte) : (s.storeBuf k bs).curFlags = s.curFlags := rfl
@[simp] theorem State.storeBuf_curLun (k : Nat) (bs : List Byte) : (s.storeBuf k bs).curLun = s.curLun := rfl
@[simp] theorem State.storeBuf_curCblen (k : Nat) (bs : List Byte) : (s.storeBuf k bs).curCblen = s.curCblen := rfl
@[simp] theorem State.storeBuf_curCb (k : Nat) (bs : List Byte) : (s.storeBuf k bs).curCb = s.curCb := rfl
@[simp] theorem State.storeBuf_hkind (k : Nat) (bs : List Byte) : (s.storeBuf k bs).hkind = s.hkind := rfl
@[simp] theorem State.storeBuf_xferLen (k : Nat) (bs : List Byte) : (s.storeBuf k bs).xferLen = s.xferLen := rfl
@[simp] theorem State.storeBuf_flashOff (k : Nat) (bs : List Byte) : (s.storeBuf k bs).flashOff = s.flashOff := rfl
@[simp] theorem State.storeBuf_xferred (k : Nat) (bs : List Byte) : (s.storeBuf k bs).xferred = s.xferred := rfl
@[simp] theorem State.storeBuf_cswStatus (k : Nat) (bs : List Byte) : (s.storeBuf k bs).cswStatus = s.cswStatus := rfl
@[simp] theorem State.storeBuf_txState (k : Nat) (bs : List Byte) : (s.storeBuf k bs).txState = s.txState := rfl
@[simp] theorem State.storeBuf_txKind (k : Nat) (bs : List Byte) : (s.storeBuf k bs).txKind = s.txKind := rfl
@[simp] theorem State.storeBuf_txStart (k : Nat) (bs : List Byte) : (s.storeBuf k bs).txStart = s.txStart := rfl
@[simp] theorem State.storeBuf_txDone (k : Nat) (bs : List Byte) : (s.storeBuf k bs).txDone = s.txDone := rfl
@[simp] theorem State.storeBuf_rxArmed (k : Nat) (bs : List Byte) : (s.storeBuf k bs).rxArmed = s.rxArmed := rfl
@[simp] theorem State.storeBuf_rxLen (k : Nat) (bs : List Byte) : (s.storeBuf k bs).rxLen = s.rxLen := rfl
@[simp] theorem State.storeBuf_rxCount (k : Nat) (bs : List Byte) : (s.storeBuf k bs).rxCount = s.rxCount := rfl
@[simp] theorem State.storeBuf_dataDone (k : Nat) (bs : List Byte) : (s.storeBuf k bs).dataDone = s.dataDone := rfl
@[simp] theorem State.storeBuf_rxStart (k : Nat) (bs : List Byte) : (s.storeBuf k bs).rxStart = s.rxStart := rfl
@[simp] theorem State.storeBuf_senseValid (k : Nat) (bs : List Byte) : (s.storeBuf k bs).senseValid = s.senseValid := rfl
@[simp] theorem State.storeBuf_senseKey (k : Nat) (bs : List Byte) : (s.storeBuf k bs).senseKey = s.senseKey := rfl
@[simp] theorem State.storeBuf_senseAsc (k : Nat) (bs : List Byte) : (s.storeBuf k bs).senseAsc = s.senseAsc := rfl
@[simp] theorem State.storeBuf_senseAscq (k : Nat) (bs : List Byte) : (s.storeBuf k bs).senseAscq = s.senseAscq := rfl
@[simp] theorem State.storeBuf_buf (k : Nat) (bs : List Byte) : (s.storeBuf k bs).buf = Memory.writeVia id s.buf k bs := rfl
@[simp] theorem State.storeBuf_cswBuf (k : Nat) (bs : List Byte) : (s.storeBuf k bs).cswBuf = s.cswBuf := rfl
@[simp] theorem State.storeBuf_faults (k : Nat) (bs : List Byte) : (s.storeBuf k bs).faults = s.faults := rfl
@[simp] theorem State.storeBuf_cfg (k : Nat) (bs : List Byte) : (s.storeBuf k bs).cfg = s.cfg := rfl
@[simp] theorem State.storeBuf_clock (k : Nat) (bs : List Byte) : (s.storeBuf k bs).clock = s.clock := rfl
@[simp] theorem State.storeBuf_flashOk (k : Nat) (bs : List Byte) : (s.storeBuf k bs).flashOk = s.flashOk := rfl
@[simp] theorem State.storeBuf_flash (k : Nat) (bs : List Byte) : (s.storeBuf k bs).flash = s.flash := rfl
@[simp] theorem State.storeBuf_pending (k : Nat) (bs : List Byte) : (s.storeBuf k bs).pending = s.pending := rfl
@[simp] theorem State.storeBuf_calls (k : Nat) (bs : List Byte) : (s.storeBuf k bs).calls = s.calls := rfl
@[simp] theorem State.storeBuf_draws (k : Nat) (bs : List Byte) : (s.storeBuf k bs).draws = s.draws := rfl

/-! `call` -/

@[simp] theorem State.call_phase (c : Call) : (s.call c).phase = s.phase := rfl
@[simp] theorem State.call_newCbw (c : Call) : (s.call c).newCbw = s.newCbw := rfl
@[simp] theorem State.call_mbox (c : Call) : (s.call c).mbox = s.mbox := rfl
@[simp] theorem State.call_curTag (c : Call) : (s.call c).curTag = s.curTag := rfl
@[simp] theorem State.call_curDtl (c : Call) : (s.call c).curDtl = s.curDtl := rfl
@[simp] theorem State.call_curFlags (c : Call) : (s.call c).curFlags = s.curFlags := rfl
@[simp] theorem State.call_curLun (c : Call) : (s.call c).curLun = s.curLun := rfl
@[simp] theorem State.call_curCblen (c : Call) : (s.call c).curCblen = s.curCblen := rfl
@[simp] theorem State.call_curCb (c : Call) : (s.call c).curCb = s.curCb := rfl
@[simp] theorem State.call_hkind (c : Call) : (s.call c).hkind = s.hkind := rfl
@[simp] theorem State.call_xferLen (c : Call) : (s.call c).xferLen = s.xferLen := rfl
@[simp] theorem State.call_flashOff (c : Call) : (s.call c).flashOff = s.flashOff := rfl
@[simp] theorem State.call_xferred (c : Call) : (s.call c).xferred = s.xferred := rfl
@[simp] theorem State.call_cswStatus (c : Call) : (s.call c).cswStatus = s.cswStatus := rfl
@[simp] theorem State.call_txState (c : Call) : (s.call c).txState = s.txState := rfl
@[simp] theorem State.call_txKind (c : Call) : (s.call c).txKind = s.txKind := rfl
@[simp] theorem State.call_txStart (c : Call) : (s.call c).txStart = s.txStart := rfl
@[simp] theorem State.call_txDone (c : Call) : (s.call c).txDone = s.txDone := rfl
@[simp] theorem State.call_rxArmed (c : Call) : (s.call c).rxArmed = s.rxArmed := rfl
@[simp] theorem State.call_rxLen (c : Call) : (s.call c).rxLen = s.rxLen := rfl
@[simp] theorem State.call_rxCount (c : Call) : (s.call c).rxCount = s.rxCount := rfl
@[simp] theorem State.call_dataDone (c : Call) : (s.call c).dataDone = s.dataDone := rfl
@[simp] theorem State.call_rxStart (c : Call) : (s.call c).rxStart = s.rxStart := rfl
@[simp] theorem State.call_senseValid (c : Call) : (s.call c).senseValid = s.senseValid := rfl
@[simp] theorem State.call_senseKey (c : Call) : (s.call c).senseKey = s.senseKey := rfl
@[simp] theorem State.call_senseAsc (c : Call) : (s.call c).senseAsc = s.senseAsc := rfl
@[simp] theorem State.call_senseAscq (c : Call) : (s.call c).senseAscq = s.senseAscq := rfl
@[simp] theorem State.call_buf (c : Call) : (s.call c).buf = s.buf := rfl
@[simp] theorem State.call_cswBuf (c : Call) : (s.call c).cswBuf = s.cswBuf := rfl
@[simp] theorem State.call_faults (c : Call) : (s.call c).faults = s.faults := rfl
@[simp] theorem State.call_cfg (c : Call) : (s.call c).cfg = s.cfg := rfl
@[simp] theorem State.call_clock (c : Call) : (s.call c).clock = s.clock := rfl
@[simp] theorem State.call_flashOk (c : Call) : (s.call c).flashOk = s.flashOk := rfl
@[simp] theorem State.call_flash (c : Call) : (s.call c).flash = s.flash := rfl
@[simp] theorem State.call_pending (c : Call) : (s.call c).pending = s.pending := rfl
@[simp] theorem State.call_calls (c : Call) : (s.call c).calls = c :: s.calls := rfl
@[simp] theorem State.call_draws (c : Call) : (s.call c).draws = s.draws := rfl

/-! `submit` -/

@[simp] theorem State.submit_phase (k : TxKind) (bs : List Byte) (n T : Word) : (s.submit k bs n T).phase = s.phase := rfl
@[simp] theorem State.submit_newCbw (k : TxKind) (bs : List Byte) (n T : Word) : (s.submit k bs n T).newCbw = s.newCbw := rfl
@[simp] theorem State.submit_mbox (k : TxKind) (bs : List Byte) (n T : Word) : (s.submit k bs n T).mbox = s.mbox := rfl
@[simp] theorem State.submit_curTag (k : TxKind) (bs : List Byte) (n T : Word) : (s.submit k bs n T).curTag = s.curTag := rfl
@[simp] theorem State.submit_curDtl (k : TxKind) (bs : List Byte) (n T : Word) : (s.submit k bs n T).curDtl = s.curDtl := rfl
@[simp] theorem State.submit_curFlags (k : TxKind) (bs : List Byte) (n T : Word) : (s.submit k bs n T).curFlags = s.curFlags := rfl
@[simp] theorem State.submit_curLun (k : TxKind) (bs : List Byte) (n T : Word) : (s.submit k bs n T).curLun = s.curLun := rfl
@[simp] theorem State.submit_curCblen (k : TxKind) (bs : List Byte) (n T : Word) : (s.submit k bs n T).curCblen = s.curCblen := rfl
@[simp] theorem State.submit_curCb (k : TxKind) (bs : List Byte) (n T : Word) : (s.submit k bs n T).curCb = s.curCb := rfl
@[simp] theorem State.submit_hkind (k : TxKind) (bs : List Byte) (n T : Word) : (s.submit k bs n T).hkind = s.hkind := rfl
@[simp] theorem State.submit_xferLen (k : TxKind) (bs : List Byte) (n T : Word) : (s.submit k bs n T).xferLen = s.xferLen := rfl
@[simp] theorem State.submit_flashOff (k : TxKind) (bs : List Byte) (n T : Word) : (s.submit k bs n T).flashOff = s.flashOff := rfl
@[simp] theorem State.submit_xferred (k : TxKind) (bs : List Byte) (n T : Word) : (s.submit k bs n T).xferred = s.xferred := rfl
@[simp] theorem State.submit_cswStatus (k : TxKind) (bs : List Byte) (n T : Word) : (s.submit k bs n T).cswStatus = s.cswStatus := rfl
@[simp] theorem State.submit_txState (k : TxKind) (bs : List Byte) (n T : Word) : (s.submit k bs n T).txState = .pending := rfl
@[simp] theorem State.submit_txKind (k : TxKind) (bs : List Byte) (n T : Word) : (s.submit k bs n T).txKind = k := rfl
@[simp] theorem State.submit_txStart (k : TxKind) (bs : List Byte) (n T : Word) : (s.submit k bs n T).txStart = s.clock := rfl
@[simp] theorem State.submit_txDone (k : TxKind) (bs : List Byte) (n T : Word) : (s.submit k bs n T).txDone = false := rfl
@[simp] theorem State.submit_rxArmed (k : TxKind) (bs : List Byte) (n T : Word) : (s.submit k bs n T).rxArmed = s.rxArmed := rfl
@[simp] theorem State.submit_rxLen (k : TxKind) (bs : List Byte) (n T : Word) : (s.submit k bs n T).rxLen = s.rxLen := rfl
@[simp] theorem State.submit_rxCount (k : TxKind) (bs : List Byte) (n T : Word) : (s.submit k bs n T).rxCount = s.rxCount := rfl
@[simp] theorem State.submit_dataDone (k : TxKind) (bs : List Byte) (n T : Word) : (s.submit k bs n T).dataDone = s.dataDone := rfl
@[simp] theorem State.submit_rxStart (k : TxKind) (bs : List Byte) (n T : Word) : (s.submit k bs n T).rxStart = s.rxStart := rfl
@[simp] theorem State.submit_senseValid (k : TxKind) (bs : List Byte) (n T : Word) : (s.submit k bs n T).senseValid = s.senseValid := rfl
@[simp] theorem State.submit_senseKey (k : TxKind) (bs : List Byte) (n T : Word) : (s.submit k bs n T).senseKey = s.senseKey := rfl
@[simp] theorem State.submit_senseAsc (k : TxKind) (bs : List Byte) (n T : Word) : (s.submit k bs n T).senseAsc = s.senseAsc := rfl
@[simp] theorem State.submit_senseAscq (k : TxKind) (bs : List Byte) (n T : Word) : (s.submit k bs n T).senseAscq = s.senseAscq := rfl
@[simp] theorem State.submit_buf (k : TxKind) (bs : List Byte) (n T : Word) : (s.submit k bs n T).buf = s.buf := rfl
@[simp] theorem State.submit_cswBuf (k : TxKind) (bs : List Byte) (n T : Word) : (s.submit k bs n T).cswBuf = s.cswBuf := rfl
@[simp] theorem State.submit_faults (k : TxKind) (bs : List Byte) (n T : Word) : (s.submit k bs n T).faults = s.faults := rfl
@[simp] theorem State.submit_cfg (k : TxKind) (bs : List Byte) (n T : Word) : (s.submit k bs n T).cfg = s.cfg := rfl
@[simp] theorem State.submit_clock (k : TxKind) (bs : List Byte) (n T : Word) : (s.submit k bs n T).clock = s.clock := rfl
@[simp] theorem State.submit_flashOk (k : TxKind) (bs : List Byte) (n T : Word) : (s.submit k bs n T).flashOk = s.flashOk := rfl
@[simp] theorem State.submit_flash (k : TxKind) (bs : List Byte) (n T : Word) : (s.submit k bs n T).flash = s.flash := rfl
@[simp] theorem State.submit_pending (k : TxKind) (bs : List Byte) (n T : Word) : (s.submit k bs n T).pending = s.pending := rfl
@[simp] theorem State.submit_calls (k : TxKind) (bs : List Byte) (n T : Word) : (s.submit k bs n T).calls = .txSubmit k bs n T :: s.calls := rfl
@[simp] theorem State.submit_draws (k : TxKind) (bs : List Byte) (n T : Word) : (s.submit k bs n T).draws = s.draws := rfl

/-! `abort` -/

@[simp] theorem State.abort_phase : s.abort.phase = s.phase := rfl
@[simp] theorem State.abort_newCbw : s.abort.newCbw = s.newCbw := rfl
@[simp] theorem State.abort_mbox : s.abort.mbox = s.mbox := rfl
@[simp] theorem State.abort_curTag : s.abort.curTag = s.curTag := rfl
@[simp] theorem State.abort_curDtl : s.abort.curDtl = s.curDtl := rfl
@[simp] theorem State.abort_curFlags : s.abort.curFlags = s.curFlags := rfl
@[simp] theorem State.abort_curLun : s.abort.curLun = s.curLun := rfl
@[simp] theorem State.abort_curCblen : s.abort.curCblen = s.curCblen := rfl
@[simp] theorem State.abort_curCb : s.abort.curCb = s.curCb := rfl
@[simp] theorem State.abort_hkind : s.abort.hkind = s.hkind := rfl
@[simp] theorem State.abort_xferLen : s.abort.xferLen = s.xferLen := rfl
@[simp] theorem State.abort_flashOff : s.abort.flashOff = s.flashOff := rfl
@[simp] theorem State.abort_xferred : s.abort.xferred = s.xferred := rfl
@[simp] theorem State.abort_cswStatus : s.abort.cswStatus = s.cswStatus := rfl
@[simp] theorem State.abort_txState : s.abort.txState = .idle := rfl
@[simp] theorem State.abort_txKind : s.abort.txKind = s.txKind := rfl
@[simp] theorem State.abort_txStart : s.abort.txStart = s.txStart := rfl
@[simp] theorem State.abort_txDone : s.abort.txDone = s.txDone := rfl
@[simp] theorem State.abort_rxArmed : s.abort.rxArmed = s.rxArmed := rfl
@[simp] theorem State.abort_rxLen : s.abort.rxLen = s.rxLen := rfl
@[simp] theorem State.abort_rxCount : s.abort.rxCount = s.rxCount := rfl
@[simp] theorem State.abort_dataDone : s.abort.dataDone = s.dataDone := rfl
@[simp] theorem State.abort_rxStart : s.abort.rxStart = s.rxStart := rfl
@[simp] theorem State.abort_senseValid : s.abort.senseValid = s.senseValid := rfl
@[simp] theorem State.abort_senseKey : s.abort.senseKey = s.senseKey := rfl
@[simp] theorem State.abort_senseAsc : s.abort.senseAsc = s.senseAsc := rfl
@[simp] theorem State.abort_senseAscq : s.abort.senseAscq = s.senseAscq := rfl
@[simp] theorem State.abort_buf : s.abort.buf = s.buf := rfl
@[simp] theorem State.abort_cswBuf : s.abort.cswBuf = s.cswBuf := rfl
@[simp] theorem State.abort_faults : s.abort.faults = s.faults := rfl
@[simp] theorem State.abort_cfg : s.abort.cfg = s.cfg := rfl
@[simp] theorem State.abort_clock : s.abort.clock = s.clock := rfl
@[simp] theorem State.abort_flashOk : s.abort.flashOk = s.flashOk := rfl
@[simp] theorem State.abort_flash : s.abort.flash = s.flash := rfl
@[simp] theorem State.abort_pending : s.abort.pending = s.pending := rfl
@[simp] theorem State.abort_calls : s.abort.calls = .txAbort :: s.calls := rfl
@[simp] theorem State.abort_draws : s.abort.draws = s.draws := rfl

/-! `finishTx` -/

@[simp] theorem State.finishTx_phase : s.finishTx.phase = s.phase := rfl
@[simp] theorem State.finishTx_newCbw : s.finishTx.newCbw = s.newCbw := rfl
@[simp] theorem State.finishTx_mbox : s.finishTx.mbox = s.mbox := rfl
@[simp] theorem State.finishTx_curTag : s.finishTx.curTag = s.curTag := rfl
@[simp] theorem State.finishTx_curDtl : s.finishTx.curDtl = s.curDtl := rfl
@[simp] theorem State.finishTx_curFlags : s.finishTx.curFlags = s.curFlags := rfl
@[simp] theorem State.finishTx_curLun : s.finishTx.curLun = s.curLun := rfl
@[simp] theorem State.finishTx_curCblen : s.finishTx.curCblen = s.curCblen := rfl
@[simp] theorem State.finishTx_curCb : s.finishTx.curCb = s.curCb := rfl
@[simp] theorem State.finishTx_hkind : s.finishTx.hkind = s.hkind := rfl
@[simp] theorem State.finishTx_xferLen : s.finishTx.xferLen = s.xferLen := rfl
@[simp] theorem State.finishTx_flashOff : s.finishTx.flashOff = s.flashOff := rfl
@[simp] theorem State.finishTx_xferred : s.finishTx.xferred = s.xferred := rfl
@[simp] theorem State.finishTx_cswStatus : s.finishTx.cswStatus = s.cswStatus := rfl
@[simp] theorem State.finishTx_txState : s.finishTx.txState = .idle := rfl
@[simp] theorem State.finishTx_txKind : s.finishTx.txKind = s.txKind := rfl
@[simp] theorem State.finishTx_txStart : s.finishTx.txStart = s.txStart := rfl
@[simp] theorem State.finishTx_txDone : s.finishTx.txDone = false := rfl
@[simp] theorem State.finishTx_rxArmed : s.finishTx.rxArmed = s.rxArmed := rfl
@[simp] theorem State.finishTx_rxLen : s.finishTx.rxLen = s.rxLen := rfl
@[simp] theorem State.finishTx_rxCount : s.finishTx.rxCount = s.rxCount := rfl
@[simp] theorem State.finishTx_dataDone : s.finishTx.dataDone = s.dataDone := rfl
@[simp] theorem State.finishTx_rxStart : s.finishTx.rxStart = s.rxStart := rfl
@[simp] theorem State.finishTx_senseValid : s.finishTx.senseValid = s.senseValid := rfl
@[simp] theorem State.finishTx_senseKey : s.finishTx.senseKey = s.senseKey := rfl
@[simp] theorem State.finishTx_senseAsc : s.finishTx.senseAsc = s.senseAsc := rfl
@[simp] theorem State.finishTx_senseAscq : s.finishTx.senseAscq = s.senseAscq := rfl
@[simp] theorem State.finishTx_buf : s.finishTx.buf = s.buf := rfl
@[simp] theorem State.finishTx_cswBuf : s.finishTx.cswBuf = s.cswBuf := rfl
@[simp] theorem State.finishTx_faults : s.finishTx.faults = s.faults := rfl
@[simp] theorem State.finishTx_cfg : s.finishTx.cfg = s.cfg := rfl
@[simp] theorem State.finishTx_clock : s.finishTx.clock = s.clock := rfl
@[simp] theorem State.finishTx_flashOk : s.finishTx.flashOk = s.flashOk := rfl
@[simp] theorem State.finishTx_flash : s.finishTx.flash = s.flash := rfl
@[simp] theorem State.finishTx_pending : s.finishTx.pending = s.pending := rfl
@[simp] theorem State.finishTx_calls : s.finishTx.calls = s.calls := rfl
@[simp] theorem State.finishTx_draws : s.finishTx.draws = s.draws := rfl

/-! `flashStore` -/

@[simp] theorem State.flashStore_phase (off : Word) (bs : List Byte) : (s.flashStore off bs).phase = s.phase := rfl
@[simp] theorem State.flashStore_newCbw (off : Word) (bs : List Byte) : (s.flashStore off bs).newCbw = s.newCbw := rfl
@[simp] theorem State.flashStore_mbox (off : Word) (bs : List Byte) : (s.flashStore off bs).mbox = s.mbox := rfl
@[simp] theorem State.flashStore_curTag (off : Word) (bs : List Byte) : (s.flashStore off bs).curTag = s.curTag := rfl
@[simp] theorem State.flashStore_curDtl (off : Word) (bs : List Byte) : (s.flashStore off bs).curDtl = s.curDtl := rfl
@[simp] theorem State.flashStore_curFlags (off : Word) (bs : List Byte) : (s.flashStore off bs).curFlags = s.curFlags := rfl
@[simp] theorem State.flashStore_curLun (off : Word) (bs : List Byte) : (s.flashStore off bs).curLun = s.curLun := rfl
@[simp] theorem State.flashStore_curCblen (off : Word) (bs : List Byte) : (s.flashStore off bs).curCblen = s.curCblen := rfl
@[simp] theorem State.flashStore_curCb (off : Word) (bs : List Byte) : (s.flashStore off bs).curCb = s.curCb := rfl
@[simp] theorem State.flashStore_hkind (off : Word) (bs : List Byte) : (s.flashStore off bs).hkind = s.hkind := rfl
@[simp] theorem State.flashStore_xferLen (off : Word) (bs : List Byte) : (s.flashStore off bs).xferLen = s.xferLen := rfl
@[simp] theorem State.flashStore_flashOff (off : Word) (bs : List Byte) : (s.flashStore off bs).flashOff = s.flashOff := rfl
@[simp] theorem State.flashStore_xferred (off : Word) (bs : List Byte) : (s.flashStore off bs).xferred = s.xferred := rfl
@[simp] theorem State.flashStore_cswStatus (off : Word) (bs : List Byte) : (s.flashStore off bs).cswStatus = s.cswStatus := rfl
@[simp] theorem State.flashStore_txState (off : Word) (bs : List Byte) : (s.flashStore off bs).txState = s.txState := rfl
@[simp] theorem State.flashStore_txKind (off : Word) (bs : List Byte) : (s.flashStore off bs).txKind = s.txKind := rfl
@[simp] theorem State.flashStore_txStart (off : Word) (bs : List Byte) : (s.flashStore off bs).txStart = s.txStart := rfl
@[simp] theorem State.flashStore_txDone (off : Word) (bs : List Byte) : (s.flashStore off bs).txDone = s.txDone := rfl
@[simp] theorem State.flashStore_rxArmed (off : Word) (bs : List Byte) : (s.flashStore off bs).rxArmed = s.rxArmed := rfl
@[simp] theorem State.flashStore_rxLen (off : Word) (bs : List Byte) : (s.flashStore off bs).rxLen = s.rxLen := rfl
@[simp] theorem State.flashStore_rxCount (off : Word) (bs : List Byte) : (s.flashStore off bs).rxCount = s.rxCount := rfl
@[simp] theorem State.flashStore_dataDone (off : Word) (bs : List Byte) : (s.flashStore off bs).dataDone = s.dataDone := rfl
@[simp] theorem State.flashStore_rxStart (off : Word) (bs : List Byte) : (s.flashStore off bs).rxStart = s.rxStart := rfl
@[simp] theorem State.flashStore_senseValid (off : Word) (bs : List Byte) : (s.flashStore off bs).senseValid = s.senseValid := rfl
@[simp] theorem State.flashStore_senseKey (off : Word) (bs : List Byte) : (s.flashStore off bs).senseKey = s.senseKey := rfl
@[simp] theorem State.flashStore_senseAsc (off : Word) (bs : List Byte) : (s.flashStore off bs).senseAsc = s.senseAsc := rfl
@[simp] theorem State.flashStore_senseAscq (off : Word) (bs : List Byte) : (s.flashStore off bs).senseAscq = s.senseAscq := rfl
@[simp] theorem State.flashStore_buf (off : Word) (bs : List Byte) : (s.flashStore off bs).buf = s.buf := rfl
@[simp] theorem State.flashStore_cswBuf (off : Word) (bs : List Byte) : (s.flashStore off bs).cswBuf = s.cswBuf := rfl
@[simp] theorem State.flashStore_faults (off : Word) (bs : List Byte) : (s.flashStore off bs).faults = s.faults := rfl
@[simp] theorem State.flashStore_cfg (off : Word) (bs : List Byte) : (s.flashStore off bs).cfg = s.cfg := rfl
@[simp] theorem State.flashStore_clock (off : Word) (bs : List Byte) : (s.flashStore off bs).clock = s.clock := rfl
@[simp] theorem State.flashStore_flashOk (off : Word) (bs : List Byte) : (s.flashStore off bs).flashOk = s.flashOk := rfl
@[simp] theorem State.flashStore_flash (off : Word) (bs : List Byte) : (s.flashStore off bs).flash = Memory.writeVia (flashPlace s.cfg) s.flash off.toNat bs := rfl
@[simp] theorem State.flashStore_pending (off : Word) (bs : List Byte) : (s.flashStore off bs).pending = s.pending := rfl
@[simp] theorem State.flashStore_calls (off : Word) (bs : List Byte) : (s.flashStore off bs).calls = s.calls := rfl
@[simp] theorem State.flashStore_draws (off : Word) (bs : List Byte) : (s.flashStore off bs).draws = s.draws := rfl

/-! `endCommand` -/

@[simp] theorem State.endCommand_phase : s.endCommand.phase = .awaitingCbw := rfl
@[simp] theorem State.endCommand_newCbw : s.endCommand.newCbw = s.newCbw := rfl
@[simp] theorem State.endCommand_mbox : s.endCommand.mbox = s.mbox := rfl
@[simp] theorem State.endCommand_curTag : s.endCommand.curTag = s.curTag := rfl
@[simp] theorem State.endCommand_curDtl : s.endCommand.curDtl = s.curDtl := rfl
@[simp] theorem State.endCommand_curFlags : s.endCommand.curFlags = s.curFlags := rfl
@[simp] theorem State.endCommand_curLun : s.endCommand.curLun = s.curLun := rfl
@[simp] theorem State.endCommand_curCblen : s.endCommand.curCblen = s.curCblen := rfl
@[simp] theorem State.endCommand_curCb : s.endCommand.curCb = s.curCb := rfl
@[simp] theorem State.endCommand_hkind : s.endCommand.hkind = s.hkind := rfl
@[simp] theorem State.endCommand_xferLen : s.endCommand.xferLen = s.xferLen := rfl
@[simp] theorem State.endCommand_flashOff : s.endCommand.flashOff = s.flashOff := rfl
@[simp] theorem State.endCommand_xferred : s.endCommand.xferred = s.xferred := rfl
@[simp] theorem State.endCommand_cswStatus : s.endCommand.cswStatus = s.cswStatus := rfl
@[simp] theorem State.endCommand_txState : s.endCommand.txState = s.txState := rfl
@[simp] theorem State.endCommand_txKind : s.endCommand.txKind = s.txKind := rfl
@[simp] theorem State.endCommand_txStart : s.endCommand.txStart = s.txStart := rfl
@[simp] theorem State.endCommand_txDone : s.endCommand.txDone = s.txDone := rfl
@[simp] theorem State.endCommand_rxArmed : s.endCommand.rxArmed = s.rxArmed := rfl
@[simp] theorem State.endCommand_rxLen : s.endCommand.rxLen = s.rxLen := rfl
@[simp] theorem State.endCommand_rxCount : s.endCommand.rxCount = s.rxCount := rfl
@[simp] theorem State.endCommand_dataDone : s.endCommand.dataDone = s.dataDone := rfl
@[simp] theorem State.endCommand_rxStart : s.endCommand.rxStart = s.rxStart := rfl
@[simp] theorem State.endCommand_senseValid : s.endCommand.senseValid = s.senseValid := rfl
@[simp] theorem State.endCommand_senseKey : s.endCommand.senseKey = s.senseKey := rfl
@[simp] theorem State.endCommand_senseAsc : s.endCommand.senseAsc = s.senseAsc := rfl
@[simp] theorem State.endCommand_senseAscq : s.endCommand.senseAscq = s.senseAscq := rfl
@[simp] theorem State.endCommand_buf : s.endCommand.buf = s.buf := rfl
@[simp] theorem State.endCommand_cswBuf : s.endCommand.cswBuf = s.cswBuf := rfl
@[simp] theorem State.endCommand_faults : s.endCommand.faults = s.faults := rfl
@[simp] theorem State.endCommand_cfg : s.endCommand.cfg = s.cfg := rfl
@[simp] theorem State.endCommand_clock : s.endCommand.clock = s.clock := rfl
@[simp] theorem State.endCommand_flashOk : s.endCommand.flashOk = s.flashOk := rfl
@[simp] theorem State.endCommand_flash : s.endCommand.flash = s.flash := rfl
@[simp] theorem State.endCommand_pending : s.endCommand.pending = s.pending := rfl
@[simp] theorem State.endCommand_calls : s.endCommand.calls = s.calls := rfl
@[simp] theorem State.endCommand_draws : s.endCommand.draws = s.draws := rfl

/-! `setInputs` -/

@[simp] theorem State.setInputs_phase (e : BitVec 31) (ok : Bool) : (s.setInputs e ok).phase = s.phase := rfl
@[simp] theorem State.setInputs_newCbw (e : BitVec 31) (ok : Bool) : (s.setInputs e ok).newCbw = s.newCbw := rfl
@[simp] theorem State.setInputs_mbox (e : BitVec 31) (ok : Bool) : (s.setInputs e ok).mbox = s.mbox := rfl
@[simp] theorem State.setInputs_curTag (e : BitVec 31) (ok : Bool) : (s.setInputs e ok).curTag = s.curTag := rfl
@[simp] theorem State.setInputs_curDtl (e : BitVec 31) (ok : Bool) : (s.setInputs e ok).curDtl = s.curDtl := rfl
@[simp] theorem State.setInputs_curFlags (e : BitVec 31) (ok : Bool) : (s.setInputs e ok).curFlags = s.curFlags := rfl
@[simp] theorem State.setInputs_curLun (e : BitVec 31) (ok : Bool) : (s.setInputs e ok).curLun = s.curLun := rfl
@[simp] theorem State.setInputs_curCblen (e : BitVec 31) (ok : Bool) : (s.setInputs e ok).curCblen = s.curCblen := rfl
@[simp] theorem State.setInputs_curCb (e : BitVec 31) (ok : Bool) : (s.setInputs e ok).curCb = s.curCb := rfl
@[simp] theorem State.setInputs_hkind (e : BitVec 31) (ok : Bool) : (s.setInputs e ok).hkind = s.hkind := rfl
@[simp] theorem State.setInputs_xferLen (e : BitVec 31) (ok : Bool) : (s.setInputs e ok).xferLen = s.xferLen := rfl
@[simp] theorem State.setInputs_flashOff (e : BitVec 31) (ok : Bool) : (s.setInputs e ok).flashOff = s.flashOff := rfl
@[simp] theorem State.setInputs_xferred (e : BitVec 31) (ok : Bool) : (s.setInputs e ok).xferred = s.xferred := rfl
@[simp] theorem State.setInputs_cswStatus (e : BitVec 31) (ok : Bool) : (s.setInputs e ok).cswStatus = s.cswStatus := rfl
@[simp] theorem State.setInputs_txState (e : BitVec 31) (ok : Bool) : (s.setInputs e ok).txState = s.txState := rfl
@[simp] theorem State.setInputs_txKind (e : BitVec 31) (ok : Bool) : (s.setInputs e ok).txKind = s.txKind := rfl
@[simp] theorem State.setInputs_txStart (e : BitVec 31) (ok : Bool) : (s.setInputs e ok).txStart = s.txStart := rfl
@[simp] theorem State.setInputs_txDone (e : BitVec 31) (ok : Bool) : (s.setInputs e ok).txDone = s.txDone := rfl
@[simp] theorem State.setInputs_rxArmed (e : BitVec 31) (ok : Bool) : (s.setInputs e ok).rxArmed = s.rxArmed := rfl
@[simp] theorem State.setInputs_rxLen (e : BitVec 31) (ok : Bool) : (s.setInputs e ok).rxLen = s.rxLen := rfl
@[simp] theorem State.setInputs_rxCount (e : BitVec 31) (ok : Bool) : (s.setInputs e ok).rxCount = s.rxCount := rfl
@[simp] theorem State.setInputs_dataDone (e : BitVec 31) (ok : Bool) : (s.setInputs e ok).dataDone = s.dataDone := rfl
@[simp] theorem State.setInputs_rxStart (e : BitVec 31) (ok : Bool) : (s.setInputs e ok).rxStart = s.rxStart := rfl
@[simp] theorem State.setInputs_senseValid (e : BitVec 31) (ok : Bool) : (s.setInputs e ok).senseValid = s.senseValid := rfl
@[simp] theorem State.setInputs_senseKey (e : BitVec 31) (ok : Bool) : (s.setInputs e ok).senseKey = s.senseKey := rfl
@[simp] theorem State.setInputs_senseAsc (e : BitVec 31) (ok : Bool) : (s.setInputs e ok).senseAsc = s.senseAsc := rfl
@[simp] theorem State.setInputs_senseAscq (e : BitVec 31) (ok : Bool) : (s.setInputs e ok).senseAscq = s.senseAscq := rfl
@[simp] theorem State.setInputs_buf (e : BitVec 31) (ok : Bool) : (s.setInputs e ok).buf = s.buf := rfl
@[simp] theorem State.setInputs_cswBuf (e : BitVec 31) (ok : Bool) : (s.setInputs e ok).cswBuf = s.cswBuf := rfl
@[simp] theorem State.setInputs_faults (e : BitVec 31) (ok : Bool) : (s.setInputs e ok).faults = s.faults := rfl
@[simp] theorem State.setInputs_cfg (e : BitVec 31) (ok : Bool) : (s.setInputs e ok).cfg = s.cfg := rfl
@[simp] theorem State.setInputs_clock (e : BitVec 31) (ok : Bool) : (s.setInputs e ok).clock = s.clock + e.setWidth 32 := rfl
@[simp] theorem State.setInputs_flashOk (e : BitVec 31) (ok : Bool) : (s.setInputs e ok).flashOk = ok := rfl
@[simp] theorem State.setInputs_flash (e : BitVec 31) (ok : Bool) : (s.setInputs e ok).flash = s.flash := rfl
@[simp] theorem State.setInputs_pending (e : BitVec 31) (ok : Bool) : (s.setInputs e ok).pending = s.pending := rfl
@[simp] theorem State.setInputs_calls (e : BitVec 31) (ok : Bool) : (s.setInputs e ok).calls = s.calls := rfl
@[simp] theorem State.setInputs_draws (e : BitVec 31) (ok : Bool) : (s.setInputs e ok).draws = s.draws := rfl

/-! `dispatchStart` -/

@[simp] theorem State.dispatchStart_phase : s.dispatchStart.phase = s.phase := rfl
@[simp] theorem State.dispatchStart_newCbw : s.dispatchStart.newCbw = s.newCbw := rfl
@[simp] theorem State.dispatchStart_mbox : s.dispatchStart.mbox = s.mbox := rfl
@[simp] theorem State.dispatchStart_curTag : s.dispatchStart.curTag = s.curTag := rfl
@[simp] theorem State.dispatchStart_curDtl : s.dispatchStart.curDtl = s.curDtl := rfl
@[simp] theorem State.dispatchStart_curFlags : s.dispatchStart.curFlags = s.curFlags := rfl
@[simp] theorem State.dispatchStart_curLun : s.dispatchStart.curLun = s.curLun := rfl
@[simp] theorem State.dispatchStart_curCblen : s.dispatchStart.curCblen = s.curCblen := rfl
@[simp] theorem State.dispatchStart_curCb : s.dispatchStart.curCb = s.curCb := rfl
@[simp] theorem State.dispatchStart_hkind : s.dispatchStart.hkind = s.hkind := rfl
@[simp] theorem State.dispatchStart_xferLen : s.dispatchStart.xferLen = 0 := rfl
@[simp] theorem State.dispatchStart_flashOff : s.dispatchStart.flashOff = 0 := rfl
@[simp] theorem State.dispatchStart_xferred : s.dispatchStart.xferred = s.xferred := rfl
@[simp] theorem State.dispatchStart_cswStatus : s.dispatchStart.cswStatus = 0x00 := rfl
@[simp] theorem State.dispatchStart_txState : s.dispatchStart.txState = s.txState := rfl
@[simp] theorem State.dispatchStart_txKind : s.dispatchStart.txKind = s.txKind := rfl
@[simp] theorem State.dispatchStart_txStart : s.dispatchStart.txStart = s.txStart := rfl
@[simp] theorem State.dispatchStart_txDone : s.dispatchStart.txDone = s.txDone := rfl
@[simp] theorem State.dispatchStart_rxArmed : s.dispatchStart.rxArmed = s.rxArmed := rfl
@[simp] theorem State.dispatchStart_rxLen : s.dispatchStart.rxLen = s.rxLen := rfl
@[simp] theorem State.dispatchStart_rxCount : s.dispatchStart.rxCount = s.rxCount := rfl
@[simp] theorem State.dispatchStart_dataDone : s.dispatchStart.dataDone = s.dataDone := rfl
@[simp] theorem State.dispatchStart_rxStart : s.dispatchStart.rxStart = s.rxStart := rfl
@[simp] theorem State.dispatchStart_senseValid : s.dispatchStart.senseValid = s.senseValid := rfl
@[simp] theorem State.dispatchStart_senseKey : s.dispatchStart.senseKey = s.senseKey := rfl
@[simp] theorem State.dispatchStart_senseAsc : s.dispatchStart.senseAsc = s.senseAsc := rfl
@[simp] theorem State.dispatchStart_senseAscq : s.dispatchStart.senseAscq = s.senseAscq := rfl
@[simp] theorem State.dispatchStart_buf : s.dispatchStart.buf = s.buf := rfl
@[simp] theorem State.dispatchStart_cswBuf : s.dispatchStart.cswBuf = s.cswBuf := rfl
@[simp] theorem State.dispatchStart_faults : s.dispatchStart.faults = s.faults := rfl
@[simp] theorem State.dispatchStart_cfg : s.dispatchStart.cfg = s.cfg := rfl
@[simp] theorem State.dispatchStart_clock : s.dispatchStart.clock = s.clock := rfl
@[simp] theorem State.dispatchStart_flashOk : s.dispatchStart.flashOk = s.flashOk := rfl
@[simp] theorem State.dispatchStart_flash : s.dispatchStart.flash = s.flash := rfl
@[simp] theorem State.dispatchStart_pending : s.dispatchStart.pending = s.pending := rfl
@[simp] theorem State.dispatchStart_calls : s.dispatchStart.calls = s.calls := rfl
@[simp] theorem State.dispatchStart_draws : s.dispatchStart.draws = s.draws := rfl

/-! `enterStage` -/

@[simp] theorem State.enterStage_phase (k : HandlerKind) : (s.enterStage k).phase = (k.dataClass.phaseOf).getD s.phase := rfl
@[simp] theorem State.enterStage_newCbw (k : HandlerKind) : (s.enterStage k).newCbw = s.newCbw := rfl
@[simp] theorem State.enterStage_mbox (k : HandlerKind) : (s.enterStage k).mbox = s.mbox := rfl
@[simp] theorem State.enterStage_curTag (k : HandlerKind) : (s.enterStage k).curTag = s.curTag := rfl
@[simp] theorem State.enterStage_curDtl (k : HandlerKind) : (s.enterStage k).curDtl = s.curDtl := rfl
@[simp] theorem State.enterStage_curFlags (k : HandlerKind) : (s.enterStage k).curFlags = s.curFlags := rfl
@[simp] theorem State.enterStage_curLun (k : HandlerKind) : (s.enterStage k).curLun = s.curLun := rfl
@[simp] theorem State.enterStage_curCblen (k : HandlerKind) : (s.enterStage k).curCblen = s.curCblen := rfl
@[simp] theorem State.enterStage_curCb (k : HandlerKind) : (s.enterStage k).curCb = s.curCb := rfl
@[simp] theorem State.enterStage_hkind (k : HandlerKind) : (s.enterStage k).hkind = k := rfl
@[simp] theorem State.enterStage_xferLen (k : HandlerKind) : (s.enterStage k).xferLen = s.xferLen := rfl
@[simp] theorem State.enterStage_flashOff (k : HandlerKind) : (s.enterStage k).flashOff = s.flashOff := rfl
@[simp] theorem State.enterStage_xferred (k : HandlerKind) : (s.enterStage k).xferred = s.xferred := rfl
@[simp] theorem State.enterStage_cswStatus (k : HandlerKind) : (s.enterStage k).cswStatus = s.cswStatus := rfl
@[simp] theorem State.enterStage_txState (k : HandlerKind) : (s.enterStage k).txState = s.txState := rfl
@[simp] theorem State.enterStage_txKind (k : HandlerKind) : (s.enterStage k).txKind = s.txKind := rfl
@[simp] theorem State.enterStage_txStart (k : HandlerKind) : (s.enterStage k).txStart = s.txStart := rfl
@[simp] theorem State.enterStage_txDone (k : HandlerKind) : (s.enterStage k).txDone = s.txDone := rfl
@[simp] theorem State.enterStage_rxArmed (k : HandlerKind) : (s.enterStage k).rxArmed = s.rxArmed := rfl
@[simp] theorem State.enterStage_rxLen (k : HandlerKind) : (s.enterStage k).rxLen = s.rxLen := rfl
@[simp] theorem State.enterStage_rxCount (k : HandlerKind) : (s.enterStage k).rxCount = s.rxCount := rfl
@[simp] theorem State.enterStage_dataDone (k : HandlerKind) : (s.enterStage k).dataDone = s.dataDone := rfl
@[simp] theorem State.enterStage_rxStart (k : HandlerKind) : (s.enterStage k).rxStart = s.rxStart := rfl
@[simp] theorem State.enterStage_senseValid (k : HandlerKind) : (s.enterStage k).senseValid = s.senseValid := rfl
@[simp] theorem State.enterStage_senseKey (k : HandlerKind) : (s.enterStage k).senseKey = s.senseKey := rfl
@[simp] theorem State.enterStage_senseAsc (k : HandlerKind) : (s.enterStage k).senseAsc = s.senseAsc := rfl
@[simp] theorem State.enterStage_senseAscq (k : HandlerKind) : (s.enterStage k).senseAscq = s.senseAscq := rfl
@[simp] theorem State.enterStage_buf (k : HandlerKind) : (s.enterStage k).buf = s.buf := rfl
@[simp] theorem State.enterStage_cswBuf (k : HandlerKind) : (s.enterStage k).cswBuf = s.cswBuf := rfl
@[simp] theorem State.enterStage_faults (k : HandlerKind) : (s.enterStage k).faults = s.faults := rfl
@[simp] theorem State.enterStage_cfg (k : HandlerKind) : (s.enterStage k).cfg = s.cfg := rfl
@[simp] theorem State.enterStage_clock (k : HandlerKind) : (s.enterStage k).clock = s.clock := rfl
@[simp] theorem State.enterStage_flashOk (k : HandlerKind) : (s.enterStage k).flashOk = s.flashOk := rfl
@[simp] theorem State.enterStage_flash (k : HandlerKind) : (s.enterStage k).flash = s.flash := rfl
@[simp] theorem State.enterStage_pending (k : HandlerKind) : (s.enterStage k).pending = s.pending := rfl
@[simp] theorem State.enterStage_calls (k : HandlerKind) : (s.enterStage k).calls = s.calls := rfl
@[simp] theorem State.enterStage_draws (k : HandlerKind) : (s.enterStage k).draws = s.draws := rfl

/-! `FaultSet` -/

@[simp] theorem FaultSet.has_empty (f : GhostFault) : FaultSet.empty.has f = false := by cases f <;> rfl
@[simp] theorem FaultSet.has_union (f : GhostFault) (a b : FaultSet) : (a.union b).has f = (a.has f || b.has f) := by
  cases f <;> rfl
@[simp] theorem FaultSet.has_insert (f g : GhostFault) (a : FaultSet) :
    (a.insert g).has f = (decide (f = g) || a.has f) := by
  cases f <;> cases g <;> rfl

end Sys2Proof.Machine
end

