-- ==== Sys2Proof/Laws/Ops.lean ====
section
/-! SUPPORT. One lemma per shared operation that says once everything it can do; proofs cite these and do not unfold. -/

namespace Sys2Proof.Machine

/-! The buffer guard -/

theorem State.withinBuf_next_iff (s : State) (n : Nat) (t u : State) :
    s.withinBuf n t = .next u ↔ n ≤ s.cfg.bufBytes ∧ t = u := by
  unfold State.withinBuf; split <;> simp_all

theorem State.withinBuf_of_le (s : State) (n : Nat) (t : State) (h : n ≤ s.cfg.bufBytes) :
    s.withinBuf n t = .next t := by
  simp [State.withinBuf, h]

/-! The latch -/

/-- What the latch holds after an error's latch write. -/
def LatchWrite.result (w : LatchWrite) (s : State) : Sense :=
  match w with
  | .overwrite v => v
  | .ifEmpty v => if s.senseValid then ⟨s.senseKey, s.senseAsc, s.senseAscq⟩ else v

/-- An error of a command writes the status, the latch, perhaps the phase, and nothing else (R212). -/
theorem State.takeError_eq (w : LatchWrite) (toStatus : Bool) (s : State) :
    s.takeError w toStatus =
      { s with
        senseValid := true, senseKey := (w.result s).key, senseAsc := (w.result s).asc,
        senseAscq := (w.result s).ascq, cswStatus := 0x01, phase := if toStatus then .statusPhase else s.phase } := by
  cases w with
  | overwrite v => rfl
  | ifEmpty v =>
    obtain ⟨⟩ := s
    rename_i valid _ _ _ _ _ _ _ _ _ _ _ _ _
    cases valid <;> rfl

theorem State.latchIfEmpty_of_valid (v : Sense) (s : State) (h : s.senseValid = true) : s.latchIfEmpty v = s := by
  simp [State.latchIfEmpty, h]

theorem State.latchIfEmpty_of_empty (v : Sense) (s : State) (h : s.senseValid = false) :
    s.latchIfEmpty v = s.latchSet v := by
  simp [State.latchIfEmpty, h]

/-! The enforcer -/

theorem State.expired_iff (s : State) (start timeout : Word) :
    s.expired start timeout = true ↔ timeout.toNat ≤ (s.clock - start).toNat := by
  simp [State.expired]

theorem State.verdict_done_iff (s : State) (timeout : Word) : s.verdict timeout = .done ↔ s.txDone = true := by
  unfold State.verdict; split <;> [skip; split] <;> simp_all

theorem State.verdict_expired_iff (s : State) (timeout : Word) :
    s.verdict timeout = .expired ↔ s.txDone = false ∧ s.expired s.txStart timeout = true := by
  unfold State.verdict; split <;> [skip; split] <;> simp_all

theorem State.verdict_wait_iff (s : State) (timeout : Word) :
    s.verdict timeout = .wait ↔ s.txDone = false ∧ s.expired s.txStart timeout = false := by
  unfold State.verdict; split <;> [skip; split] <;> simp_all

/-! Overlap -/

theorem State.overlap_eq_false_iff (s : State) :
    s.overlap = false ↔
      s.newCbw = false ∧
        (s.phase = .awaitingCbw ∨ s.phase = .reserved6 ∨ s.phase = .reserved7 ∨
          (s.phase = .statusPhase ∧ s.txState = .pending)) := by
  cases hp : s.phase <;> cases ht : s.txState <;> simp [State.overlap, hp, ht]

/-! The flash store -/

/-- A flash call writes the flash, records itself and, when it fails, draws free bytes; nothing else. -/
theorem State.flashWrite_eq (off : Word) (bytes : List Byte) (n : Word) (s : State) :
    s.flashWrite off bytes n =
      { s with
        calls := .flashWrite off bytes n s.flashOk :: s.calls
        flash := Memory.writeVia (flashPlace s.cfg) s.flash off.toNat
          (if s.flashOk then bytes else s.freeBytes n.toNat)
        draws := if s.flashOk then s.draws else s.draws + n.toNat } := by
  obtain ⟨⟩ := s
  rename_i ok _ _ _ _
  cases ok <;> rfl

@[simp] theorem State.freeBytes_length (s : State) (n : Nat) : (s.freeBytes n).length = n := by
  simp [State.freeBytes]

@[simp] theorem State.loadBuf_length (s : State) (n : Nat) : (s.loadBuf n).length = n := by
  simp [State.loadBuf]

@[simp] theorem State.flashBytes_length (s : State) (off : Word) (n : Nat) : (s.flashBytes off n).length = n := by
  simp [State.flashBytes]

/-- A stretch puts the offsets it holds at its places; the stretches after it decide about every other one. -/
theorem placeIn_cons (r : FlashRun) (runs : List FlashRun) (a : Nat) :
    placeIn (r :: runs) a =
      if r.first ≤ a ∧ a - r.first < r.count then some (r.place + (a - r.first)) else placeIn runs a := rfl

/-- Under a map supplied as an argument, an offset beyond the size that the map holds goes to its place in it. -/
theorem flashPlace_of_placeIn (c : Config) (runs : List FlashRun) (a p : Nat) (hm : c.flashAddrMap = .external runs)
    (ha : c.flashSize ≤ a) (hp : placeIn runs a = some p) (h : p < c.flashSize) : flashPlace c a = p := by
  simp [flashPlace, hm, Nat.not_lt.2 ha, hp, Nat.mod_eq_of_lt h]

/-- The flash store resolves every offset inside itself. -/
theorem flashPlace_lt (c : Config) (a : Nat) (h : 0 < c.flashSize) : flashPlace c a < c.flashSize := by
  unfold flashPlace
  split
  · exact Nat.mod_lt _ h
  · split
    · assumption
    · exact Nat.mod_lt _ h

/-- An offset below the size is its own place. -/
theorem flashPlace_of_lt (c : Config) (a : Nat) (h : a < c.flashSize) : flashPlace c a = a := by
  unfold flashPlace
  split
  · exact Nat.mod_eq_of_lt h
  · simp [h]

/-! Runs after a ghost fault (R207) -/

@[simp] theorem State.ungoverned_cfg (s : State) : s.ungoverned.cfg = s.cfg := rfl
@[simp] theorem State.ungoverned_pending (s : State) : s.ungoverned.pending = s.pending := rfl
@[simp] theorem State.ungoverned_draws (s : State) : s.ungoverned.draws = s.draws + 1 := rfl

/-- No name leaves `faults`, whatever else the free state holds. -/
theorem State.ungoverned_faults (s : State) (f : GhostFault) (h : s.faults.has f = true) :
    s.ungoverned.faults.has f = true := by
  simp only [State.ungoverned, FaultSet.has_union, h, Bool.true_or]

/-- A free state's memories are in canonical form and within their bounds. -/
theorem State.ungoverned_memories (s : State) :
    s.ungoverned.buf.wf = true ∧ s.ungoverned.buf.below s.cfg.bufBytes = true ∧
      s.ungoverned.flash.wf = true ∧ s.ungoverned.flash.below s.cfg.flashSize = true :=
  ⟨Memory.canonical_wf _ _, Memory.canonical_below _ _, Memory.canonical_wf _ _, Memory.canonical_below _ _⟩

/-! Fetching -/

/-- With a move listed, a step takes the oldest one. -/
theorem State.fetch_cons (s : State) (m : Move) (rest : List Move) (ha : s.admitted) (h : s.pending = m :: rest) :
    s.fetch = ({ s with pending := rest } : State).select m := by
  simp [State.fetch, State.nextMove, h, show s.faults = .empty from ha]

/-- With no move listed, a step takes a free one. -/
theorem State.fetch_nil (s : State) (ha : s.admitted) (h : s.pending = []) :
    s.fetch = ({ s with draws := s.draws + 1 } : State).select (Config.freeMove s.draws) := by
  simp [State.fetch, State.nextMove, h, show s.faults = .empty from ha]

/-- Once a ghost fault is recorded, a fetch selects nothing and leaves a free state. -/
theorem State.fetch_faulted (s : State) (ha : ¬s.admitted) :
    ∃ (rest : List Move) (d : Nat), s.fetch = (none, ({ s with pending := rest, draws := d } : State).ungoverned) := by
  have hf : ¬s.faults = .empty := ha
  unfold State.fetch State.nextMove
  cases hp : s.pending with
  | cons m rest => exact ⟨rest, s.draws, by simp [hf]⟩
  | nil => exact ⟨s.pending, s.draws + 1, by simp [hf, hp]⟩

/-- Everything a fetch can do: the state it leaves differs in the environment's fields only, and the operation is reset, an
event's, or the tick that the state it leaves selects; or there is none (R130, R160, R231). -/
theorem State.fetch_cases (s : State) (ha : s.admitted) :
    ∃ (rest : List Move) (now : Word) (ok : Bool) (d : Nat) (u : State),
      u = { s with pending := rest, clock := now, flashOk := ok, draws := d } ∧
      (s.fetch = (none, u) ∨ s.fetch = (some .reset, u) ∨ (∃ e, s.fetch = (some (decodeEvent e), u)) ∨
        s.fetch = (some (decodeTick u.selector), u)) := by
  have key : ∀ (m : Move) (r : State),
      ∃ (now : Word) (ok : Bool) (u : State), u = { r with clock := now, flashOk := ok } ∧
        (r.select m = (none, u) ∨ r.select m = (some .reset, u) ∨ (∃ e, r.select m = (some (decodeEvent e), u)) ∨
          r.select m = (some (decodeTick u.selector), u)) := by
    intro m r
    cases m with
    | powerOn => exact ⟨r.clock, r.flashOk, r, rfl, .inr (.inl rfl)⟩
    | busReset =>
      refine ⟨r.clock, r.flashOk, r, rfl, ?_⟩
      cases hb : r.cfg.resetOnBusReset
      · exact .inl (by simp [State.select, hb])
      · exact .inr (.inl (by simp [State.select, hb]))
    | event e => exact ⟨r.clock, r.flashOk, r, rfl, .inr (.inr (.inl ⟨e, rfl⟩))⟩
    | tick d ok => exact ⟨_, _, r.setInputs d ok, rfl, .inr (.inr (.inr rfl))⟩
  cases hp : s.pending with
  | cons m rest =>
    obtain ⟨now, ok, u, hu, h⟩ := key m { s with pending := rest }
    rw [← State.fetch_cons s m rest ha hp] at h
    exact ⟨rest, now, ok, s.draws, u, hu, h⟩
  | nil =>
    obtain ⟨now, ok, u, hu, h⟩ := key (Config.freeMove s.draws) { s with draws := s.draws + 1 }
    rw [← State.fetch_nil s ha hp] at h
    exact ⟨s.pending, now, ok, s.draws + 1, u, hu, h⟩

/-- A step whose configuration is admitted runs what the fetch selects. -/
theorem step_of_wf (s : State) (h : s.cfg.wf = true) :
    step s = match s.fetch with | (some i, t) => exec i t | (none, t) => .next t :=
  if_pos h

/-- Everything a step that goes on can do: the configuration is admitted, and either the block saw nothing, or it reset, or
it ran an event's operation, or it ran the tick that `phase` and the sub-state select. -/
theorem step_cases (s t : State) (ha : s.admitted) (h : step s = .next t) :
    s.cfg.wf = true ∧
      ∃ (rest : List Move) (now : Word) (ok : Bool) (d : Nat) (u : State),
        u = { s with pending := rest, clock := now, flashOk := ok, draws := d } ∧
        ((s.fetch.1 = none ∧ t = u) ∨ (s.fetch.1 = some .reset ∧ exec .reset u = .next t) ∨
          (∃ e, s.fetch.1 = some (decodeEvent e) ∧ exec (decodeEvent e) u = .next t) ∨
          (s.fetch.1 = some (decodeTick u.selector) ∧ tickOnce u = .next t)) := by
  by_cases hc : s.cfg.wf = true
  · refine ⟨hc, ?_⟩
    rw [step_of_wf s hc] at h
    obtain ⟨rest, now, ok, d, u, hu, hf | hf | ⟨e, hf⟩ | hf⟩ := s.fetch_cases ha <;> rw [hf] at h <;>
      refine ⟨rest, now, ok, d, u, hu, ?_⟩ <;> rw [hf]
    · exact .inl ⟨rfl, by cases h; rfl⟩
    · exact .inr (.inl ⟨rfl, h⟩)
    · exact .inr (.inr (.inl ⟨e, rfl, h⟩))
    · exact .inr (.inr (.inr ⟨rfl, h⟩))
  · rw [step, if_neg hc] at h
    cases h

/-- Once a ghost fault is recorded, a step under an admitted configuration goes on to a free state. -/
theorem step_faulted (s : State) (hc : s.cfg.wf = true) (ha : ¬s.admitted) :
    ∃ (rest : List Move) (d : Nat), step s = .next ({ s with pending := rest, draws := d } : State).ungoverned := by
  obtain ⟨rest, d, h⟩ := s.fetch_faulted ha
  exact ⟨rest, d, by rw [step_of_wf s hc, h]⟩

/-- A run of one step more is the step and then the run. -/
theorem run_next {M : Host.Core} {s t : M.State} (k : Nat) (h : M.step s = .next t) : M.run (k + 1) s = M.run k t := by
  simp [Host.Core.run, h]

/-- A run of one step more that goes on began with a step that went on. -/
theorem run_succ_next {M : Host.Core} {s t : M.State} (k : Nat) (h : M.run (k + 1) s = .next t) :
    ∃ u, M.step s = .next u ∧ M.run k u = .next t := by
  simp only [Host.Core.run] at h
  split at h
  · rename_i u hu; exact ⟨u, hu, h⟩
  · cases h
  · cases h

/-- Which tick runs in each phase (R130). -/
theorem tickOnce_eq (s : State) :
    tickOnce s =
      match s.phase with
      | .awaitingCbw => execTickAwait s
      | .commandPhase => execTickCommand s
      | .dataInPhase => if s.txState = .idle then execTickDinStart s else execTickDinWait s
      | .dataOutPhase => if s.rxArmed = false then execTickDoutArm s else execTickDoutWait s
      | .noDataPhase => execTickNodata s
      | .statusPhase => if s.txState = .idle then execTickStsStart s else execTickStsWait s
      | .reserved6 => execTickBad s
      | .reserved7 => execTickBad s := by
  unfold tickOnce State.selector State.subState
  cases hp : s.phase <;> cases ht : s.txState <;> cases hr : s.rxArmed <;> rfl

/-! The buffer is large enough for every payload (R52) -/

/-- What `Config.wf` gives about sizes. -/
theorem wf_sizes (c : Config) (h : c.wf = true) :
    (∃ k ≤ 32, c.blockSize = 2 ^ k) ∧ maxBlocks * c.blockSize ≤ c.bufBytes ∧
      0 < c.blockSize ∧ 65535 ≤ c.bufBytes ∧ 0 < c.flashSize ∧ c.modeSenseData.length ≤ 255 := by
  simp only [Config.wf, Config.blockSizeOk, Config.flashSizeOk, Config.modeSenseOk, Bool.and_eq_true, decide_eq_true_eq,
    List.any_eq_true, List.mem_range, beq_iff_eq] at h
  obtain ⟨⟨⟨⟨⟨⟨k, hk, hb⟩, hbuf⟩, hf1, hf2⟩, ⟨hm1, hm2⟩, hm3⟩, hs⟩, hn⟩ := h
  have hpos : 0 < c.blockSize := by rw [hb]; positivity
  have hfs : 0 < c.flashSize := by
    rcases Nat.eq_zero_or_pos c.flashSize with h0 | h0
    · simp [h0] at hf1
    · exact h0
  have : 65535 * 1 ≤ maxBlocks * c.blockSize := Nat.mul_le_mul (by decide) hpos
  exact ⟨⟨k, by omega, hb⟩, hbuf, hpos, by omega, hfs, hm2⟩

/-- A multiple of `BLOCK_SIZE` stays one when it rolls over at 2^32, which `BLOCK_SIZE` divides (R58). -/
theorem blockSize_dvd_ofNat (c : Config) (h : c.wf = true) (n : Nat) :
    c.blockSize ∣ (BitVec.ofNat 32 (n * c.blockSize)).toNat := by
  obtain ⟨⟨k, hk, hb⟩, _⟩ := wf_sizes c h
  simp only [BitVec.toNat_ofNat]
  have h32 : c.blockSize ∣ 2 ^ 32 := by rw [hb]; exact Nat.pow_dvd_pow 2 hk
  exact (Nat.dvd_mod_iff h32).2 (Dvd.intro_left _ rfl)

/-- A block count's byte length does not wrap where it fits a u32 (R80). -/
theorem lengthOf_toNat (c : Config) (blocks : Half) (h : blocks.toNat * c.blockSize < 2 ^ 32) :
    (lengthOf c blocks).toNat = blocks.toNat * c.blockSize := by
  rw [lengthOf, if_pos h, BitVec.toNat_ofNat, Nat.mod_eq_of_lt h]

/-- Every length of a block transfer lies in the buffer (R52), the free ones too. -/
theorem lengthOf_le (c : Config) (h : c.wf = true) (blocks : Half) : (lengthOf c blocks).toNat ≤ c.bufBytes := by
  obtain ⟨_, hbuf, _⟩ := wf_sizes c h
  have hb : blocks.toNat * c.blockSize ≤ maxBlocks * c.blockSize :=
    Nat.mul_le_mul_right _ (by have := blocks.isLt; unfold maxBlocks; omega)
  by_cases hl : blocks.toNat * c.blockSize < 2 ^ 32
  · rw [lengthOf_toNat c blocks hl]; omega
  · have := (lengthOf c blocks).isLt; omega

/-- Every length of a block transfer is a multiple of `BLOCK_SIZE` (R58). -/
theorem lengthOf_aligned (c : Config) (h : c.wf = true) (blocks : Half) : c.blockSize ∣ (lengthOf c blocks).toNat := by
  unfold lengthOf
  split <;> exact blockSize_dvd_ofNat c h _

/-- Every offset the block computes is a multiple of `BLOCK_SIZE` (R58). -/
theorem offsetOf_aligned (c : Config) (h : c.wf = true) (lba : Word) : c.blockSize ∣ (offsetOf c lba).toNat :=
  blockSize_dvd_ofNat c h lba.toNat

theorem fixedLen_le (s : State) (n : Nat) : (s.fixedLen n).toNat ≤ n := by
  simp only [State.fixedLen, BitVec.toNat_ofNat]
  exact Nat.le_trans (Nat.mod_le _ _) (Nat.min_le_left _ _)

/-- `FixedLen(n)` as a number (R120). -/
theorem fixedLen_toNat (s : State) (n : Nat) : (s.fixedLen n).toNat = min n s.curDtl.toNat := by
  simp only [State.fixedLen, BitVec.toNat_ofNat]
  exact Nat.mod_eq_of_lt (by have := s.curDtl.isLt; omega)

end Sys2Proof.Machine
end

