-- ==== Sys2Proof/Laws/PerInstr.lean ====
section
/-! SUPPORT. The per-instruction family `EncodedLength`: how many bytes each instruction's encoding has. -/

namespace Sys2Proof

/-- How many bytes an instruction's encoding has: 16 for a command block, 31 for a wrapper (R71), one for a tick's selector,
none for reset, and for an event its kind byte and its payload (R87). -/
def Instr.encodedLength : Instr → Nat
  | .evReserved => 1
  | .evCbw _ => 32
  | .evData bytes => 5 + bytes.length
  | .evTxdone => 1
  | i =>
    match i.format with
    | .cdb => 16
    | .cbw => 31
    | .tick => 1
    | _ => 0

/-- An instruction's encoding has the length its format gives it. -/
def Laws.EncodedLength.Statement (i : Instr) : Prop := (encode i).length = i.encodedLength

namespace Laws.EncodedLength

theorem testUnitReady (tail : Bytes 15) : Statement (.testUnitReady tail) := by
  simp [Statement, encode, Instr.encodedLength, Instr.format, tail.length_eq]
theorem requestSense (tail : Bytes 15) : Statement (.requestSense tail) := by
  simp [Statement, encode, Instr.encodedLength, Instr.format, tail.length_eq]
theorem inquiry (tail : Bytes 15) : Statement (.inquiry tail) := by
  simp [Statement, encode, Instr.encodedLength, Instr.format, tail.length_eq]
theorem modeSense6 (tail : Bytes 15) : Statement (.modeSense6 tail) := by
  simp [Statement, encode, Instr.encodedLength, Instr.format, tail.length_eq]
theorem startStopUnit (tail : Bytes 15) : Statement (.startStopUnit tail) := by
  simp [Statement, encode, Instr.encodedLength, Instr.format, tail.length_eq]
theorem preventAllowMediumRemoval (tail : Bytes 15) : Statement (.preventAllowMediumRemoval tail) := by
  simp [Statement, encode, Instr.encodedLength, Instr.format, tail.length_eq]
theorem readCapacity10 (tail : Bytes 15) : Statement (.readCapacity10 tail) := by
  simp [Statement, encode, Instr.encodedLength, Instr.format, tail.length_eq]
theorem read10 (args : BlockArgs) : Statement (.read10 args) := by
  simp [Statement, encode, Instr.encodedLength, Instr.format]
theorem write10 (args : BlockArgs) : Statement (.write10 args) := by
  simp [Statement, encode, Instr.encodedLength, Instr.format]
theorem invalid (opcode : Byte) (tail : Bytes 15) : Statement (.invalid opcode tail) := by
  simp [Statement, encode, Instr.encodedLength, Instr.format, tail.length_eq]
theorem cbwValid (c : Cbw) : Statement (.cbwValid c) := (encodeCbw c).length_eq
theorem cbwMalformed (raw : Bytes 31) : Statement (.cbwMalformed raw) := raw.length_eq
theorem evReserved : Statement .evReserved := rfl
theorem evCbw (raw : Bytes 31) : Statement (.evCbw raw) := by
  simp [Statement, encode, Instr.encodedLength, raw.length_eq]
theorem evData (bytes : List Byte) : Statement (.evData bytes) := by
  simp [Statement, encode, Instr.encodedLength]; omega
theorem evTxdone : Statement .evTxdone := rfl
theorem tickAwait : Statement .tickAwait := rfl
theorem tickCommand : Statement .tickCommand := rfl
theorem tickDinStart : Statement .tickDinStart := rfl
theorem tickDinWait : Statement .tickDinWait := rfl
theorem tickDoutArm : Statement .tickDoutArm := rfl
theorem tickDoutWait : Statement .tickDoutWait := rfl
theorem tickNodata : Statement .tickNodata := rfl
theorem tickStsStart : Statement .tickStsStart := rfl
theorem tickStsWait : Statement .tickStsWait := rfl
theorem tickBad : Statement .tickBad := rfl
theorem reset : Statement .reset := rfl

end Laws.EncodedLength

end Sys2Proof
end

