-- ==== Sys2Proof/Laws/Steps.lean ====
section
/-! SUPPORT. Everything a tick and everything an event can do, said once: proofs about every step take these cases and do not
unfold a meaning. -/

namespace Sys2Proof.Machine

/-- What a tick that goes on leaves, by the phase it ran in (R130-R157). -/
inductive TickStep (s : State) : State → Prop where
  | awaitIdle (hp : s.phase = .awaitingCbw) (hn : s.newCbw = false) : TickStep s s
  | awaitTake (hp : s.phase = .awaitingCbw) (hn : s.newCbw = true) (c : Cbw) (hc : decodeCbw s.mbox = some c) :
      TickStep s { s with
        curTag := c.tag, curDtl := c.dtl, curFlags := c.flags, curLun := c.lun, curCblen := c.cblen, curCb := c.cb,
        newCbw := false, hkind := .none, xferLen := 0, flashOff := 0, xferred := 0, cswStatus := 0x00, rxCount := 0,
        phase := .commandPhase }
  | commandFixed (hp : s.phase = .commandPhase) (k : HandlerKind) (payload : List Byte) (calls : List Call)
      (hk : k.dataClass = .dataIn) (hr : k ≠ .read10) (hl : payload.length ≤ s.cfg.bufBytes) :
      TickStep s { s with
        hkind := k, cswStatus := 0x00, xferLen := s.fixedLen payload.length, flashOff := 0,
        buf := Memory.writeVia id s.buf 0 payload, phase := .dataInPhase, calls := calls }
  | commandNoData (hp : s.phase = .commandPhase) (k : HandlerKind) (status : Byte) (hk : k = .tur ∨ k = .noop)
      (hs : status = 0x00 ∨ status = 0x01) :
      TickStep s { s with hkind := k, cswStatus := status, xferLen := 0, flashOff := 0, phase := .noDataPhase }
  | commandInvalid (hp : s.phase = .commandPhase) :
      TickStep s { s with
        hkind := .invalid, cswStatus := 0x01, xferLen := 0, flashOff := 0, phase := .noDataPhase,
        senseValid := true, senseKey := s.cfg.senseInvalidOpcode.key, senseAsc := s.cfg.senseInvalidOpcode.asc,
        senseAscq := s.cfg.senseInvalidOpcode.ascq }
  | commandRead (hp : s.phase = .commandPhase) (ho : byteAt s.curCb.toList 0 = 0x28) (args : BlockArgs) :
      TickStep s { s with
        hkind := .read10, cswStatus := 0x00, flashOff := offsetOf s.cfg args.lba, xferLen := lengthOf s.cfg args.blocks,
        phase := .dataInPhase }
  | commandWrite (hp : s.phase = .commandPhase) (ho : byteAt s.curCb.toList 0 = 0x2A) (args : BlockArgs) :
      TickStep s { s with
        hkind := .write10, cswStatus := 0x00, flashOff := offsetOf s.cfg args.lba, xferLen := lengthOf s.cfg args.blocks,
        phase := .dataOutPhase }
  | noData (hp : s.phase = .noDataPhase) : TickStep s { s with xferred := 0, phase := .statusPhase }
  | dinEmpty (hp : s.phase = .dataInPhase) (ht : s.txState = .idle) (hx : s.xferLen = 0) (hk : s.hkind ≠ .reqsense) :
      TickStep s { s with xferred := 0, phase := .statusPhase }
  | dinEmptySense (hp : s.phase = .dataInPhase) (ht : s.txState = .idle) (hx : s.xferLen = 0) (hk : s.hkind = .reqsense) :
      TickStep s { s with
        xferred := 0, phase := .statusPhase, senseValid := false, senseKey := 0, senseAsc := 0, senseAscq := 0 }
  | dinReadOk (hp : s.phase = .dataInPhase) (ht : s.txState = .idle) (hx : s.xferLen ≠ 0) (hk : s.hkind = .read10)
      (ho : s.flashOk = true) (hl : s.xferLen.toNat ≤ s.cfg.bufBytes) (m : Memory)
      (hm : m = Memory.writeVia id s.buf 0 (s.flashBytes s.flashOff s.xferLen.toNat)) :
      TickStep s { s with
        buf := m, txDone := false, txKind := .data, txStart := s.clock, txState := .pending,
        calls := .txSubmit .data (Memory.readVia id m 0 s.xferLen.toNat) s.xferLen s.cfg.tDataMs ::
          .flashRead s.flashOff s.xferLen s.flashOk :: s.calls }
  | dinReadFail (hp : s.phase = .dataInPhase) (ht : s.txState = .idle) (hx : s.xferLen ≠ 0) (hk : s.hkind = .read10)
      (ho : s.flashOk = false) :
      TickStep s { s with
        senseValid := true, senseKey := s.cfg.senseMediumRead.key, senseAsc := s.cfg.senseMediumRead.asc,
        senseAscq := s.cfg.senseMediumRead.ascq, cswStatus := 0x01, xferred := 0, phase := .statusPhase,
        calls := .flashRead s.flashOff s.xferLen s.flashOk :: s.calls }
  | dinSubmit (hp : s.phase = .dataInPhase) (ht : s.txState = .idle) (hx : s.xferLen ≠ 0) (hk : s.hkind ≠ .read10)
      (hl : s.xferLen.toNat ≤ s.cfg.bufBytes) :
      TickStep s { s with
        txDone := false, txKind := .data, txStart := s.clock, txState := .pending,
        calls := .txSubmit .data (s.loadBuf s.xferLen.toNat) s.xferLen s.cfg.tDataMs :: s.calls }
  | dinWait (hp : s.phase = .dataInPhase) (ht : s.txState = .pending) (hv : s.verdict s.cfg.tDataMs = .wait) : TickStep s s
  | dinDone (hp : s.phase = .dataInPhase) (ht : s.txState = .pending) (hd : s.txDone = true) (hk : s.hkind ≠ .reqsense) :
      TickStep s { s with txDone := false, txState := .idle, xferred := s.xferLen, phase := .statusPhase }
  | dinDoneSense (hp : s.phase = .dataInPhase) (ht : s.txState = .pending) (hd : s.txDone = true) (hk : s.hkind = .reqsense) :
      TickStep s { s with
        txDone := false, txState := .idle, xferred := s.xferLen, phase := .statusPhase,
        senseValid := false, senseKey := 0, senseAsc := 0, senseAscq := 0 }
  | dinTimeout (hp : s.phase = .dataInPhase) (ht : s.txState = .pending) (hv : s.verdict s.cfg.tDataMs = .expired)
      (v : Sense) (hs : v = (LatchWrite.ifEmpty s.cfg.senseDataTimeout).result s) :
      TickStep s { s with
        txState := .idle, xferred := 0, cswStatus := 0x01, phase := .statusPhase, calls := .txAbort :: s.calls,
        senseValid := true, senseKey := v.key, senseAsc := v.asc, senseAscq := v.ascq }
  | doutEmpty (hp : s.phase = .dataOutPhase) (hr : s.rxArmed = false) (hx : s.xferLen = 0) :
      TickStep s { s with xferred := 0, phase := .statusPhase }
  | doutArm (hp : s.phase = .dataOutPhase) (hr : s.rxArmed = false) (hx : s.xferLen ≠ 0) :
      TickStep s { s with
        rxLen := s.xferLen, rxCount := 0, dataDone := false, rxStart := s.clock, rxArmed := true,
        calls := .rxArm s.xferLen :: s.calls }
  | doutOk (hp : s.phase = .dataOutPhase) (hr : s.rxArmed = true) (hd : s.dataDone = true) (ho : s.flashOk = true)
      (hl : s.xferLen.toNat ≤ s.cfg.bufBytes) :
      TickStep s { s with
        dataDone := false, rxArmed := false, xferred := s.rxCount, phase := .statusPhase,
        flash := Memory.writeVia (flashPlace s.cfg) s.flash s.flashOff.toNat (s.loadBuf s.xferLen.toNat),
        calls := .flashWrite s.flashOff (s.loadBuf s.xferLen.toNat) s.xferLen s.flashOk :: s.calls }
  | doutFail (hp : s.phase = .dataOutPhase) (hr : s.rxArmed = true) (hd : s.dataDone = true) (ho : s.flashOk = false)
      (hl : s.xferLen.toNat ≤ s.cfg.bufBytes) :
      TickStep s { s with
        dataDone := false, rxArmed := false, xferred := s.rxCount, phase := .statusPhase, cswStatus := 0x01,
        flash := Memory.writeVia (flashPlace s.cfg) s.flash s.flashOff.toNat (s.freeBytes s.xferLen.toNat),
        draws := s.draws + s.xferLen.toNat,
        calls := .flashWrite s.flashOff (s.loadBuf s.xferLen.toNat) s.xferLen s.flashOk :: s.calls,
        senseValid := true, senseKey := s.cfg.senseMediumWrite.key, senseAsc := s.cfg.senseMediumWrite.asc,
        senseAscq := s.cfg.senseMediumWrite.ascq }
  | doutTimeout (hp : s.phase = .dataOutPhase) (hr : s.rxArmed = true) (hd : s.dataDone = false)
      (he : s.receptionExpired = true) (v : Sense) (hs : v = (LatchWrite.ifEmpty s.cfg.senseDataTimeout).result s) :
      TickStep s { s with
        rxArmed := false, xferred := s.rxCount, cswStatus := 0x01, phase := .statusPhase, calls := .rxDisarm :: s.calls,
        senseValid := true, senseKey := v.key, senseAsc := v.asc, senseAscq := v.ascq }
  | doutWait (hp : s.phase = .dataOutPhase) (hr : s.rxArmed = true) (hd : s.dataDone = false)
      (he : s.receptionExpired = false) : TickStep s s
  | stsStart (hp : s.phase = .statusPhase) (ht : s.txState = .idle) :
      TickStep s { s with
        cswBuf := s.cswOf, txDone := false, txKind := .csw, txStart := s.clock, txState := .pending,
        calls := .txSubmit .csw s.cswOf.toList 13 s.cfg.tCswMs :: s.calls }
  | stsWait (hp : s.phase = .statusPhase) (ht : s.txState = .pending) (hv : s.verdict s.cfg.tCswMs = .wait) : TickStep s s
  | stsDone (hp : s.phase = .statusPhase) (ht : s.txState = .pending) (hd : s.txDone = true) :
      TickStep s { s with txDone := false, txState := .idle, phase := .awaitingCbw }
  | stsTimeout (hp : s.phase = .statusPhase) (ht : s.txState = .pending) (hv : s.verdict s.cfg.tCswMs = .expired) :
      TickStep s { s with txState := .idle, phase := .awaitingCbw, calls := .txAbort :: s.calls }
  | bad (hp : s.phase = .reserved6 ∨ s.phase = .reserved7) :
      TickStep s { s with faults := { s.faults with badPhase := true } }

theorem sendFixed_step (s r : State) (k : HandlerKind) (payload : List Byte) (calls : List Call) (t : State)
    (hp : s.phase = .commandPhase) (hk : k.dataClass = .dataIn) (hr : k ≠ .read10) (he : r = { s with calls := calls })
    (h : r.sendFixed k payload = .next t) : TickStep s t := by
  subst he
  obtain ⟨hl, rfl⟩ := (State.withinBuf_next_iff _ _ _ _).1 h
  simp only [State.enterStage, hk]
  exact .commandFixed hp k payload calls hk hr hl

theorem noOpOrInvalid_step (s t : State) (opcode : Byte) (hp : s.phase = .commandPhase)
    (h : Host.Outcome.next (s.noOpOrInvalid opcode) = (.next t : Result)) : TickStep s t := by
  cases h
  unfold State.noOpOrInvalid
  split
  · exact .commandNoData hp .noop 0x00 (.inr rfl) (.inl rfl)
  · exact .commandInvalid hp

/-- Opcode 0x28, and no other, is READ(10)'s row (R81). -/
theorem cdbRow_read10_iff (op : Byte) : cdbRow op = .read10 ↔ op = 0x28 := by
  refine ⟨fun h => ?_, fun h => h ▸ rfl⟩
  simp only [cdbRow] at h
  repeat' split at h
  all_goals first | assumption | cases h

/-- Opcode 0x2A, and no other, is WRITE(10)'s row (R81). -/
theorem cdbRow_write10_iff (op : Byte) : cdbRow op = .write10 ↔ op = 0x2A := by
  refine ⟨fun h => ?_, fun h => h ▸ rfl⟩
  simp only [cdbRow] at h
  repeat' split at h
  all_goals first | assumption | cases h

theorem execTickCommand_step (s t : State) (hp : s.phase = .commandPhase) (h : execTickCommand s = .next t) :
    TickStep s t := by
  unfold execTickCommand at h
  split at h
  · cases h
    refine .commandNoData hp .tur _ (.inl rfl) ?_
    show (if s.senseValid = true then _ else _) = _ ∨ (if s.senseValid = true then _ else _) = _
    cases s.senseValid
    · exact .inl rfl
    · exact .inr rfl
  · exact sendFixed_step s s _ _ s.calls t hp rfl (by decide) rfl h
  · exact sendFixed_step s s _ _ s.calls t hp rfl (by decide) rfl h
  · exact sendFixed_step s s _ _ s.calls t hp rfl (by decide) rfl h
  · exact noOpOrInvalid_step s t _ hp h
  · exact noOpOrInvalid_step s t _ hp h
  · exact sendFixed_step s _ _ _ (.flashSize :: s.calls) t hp rfl (by decide) rfl h
  · rename_i hc; cases h; exact .commandRead hp ((cdbRow_read10_iff _).1 hc) _
  · rename_i hc; cases h; exact .commandWrite hp ((cdbRow_write10_iff _).1 hc) _
  · exact noOpOrInvalid_step s t _ hp h

theorem execTickDinStart_step (s t : State) (hp : s.phase = .dataInPhase) (ht : s.txState = .idle)
    (h : execTickDinStart s = .next t) : TickStep s t := by
  unfold execTickDinStart at h
  split at h
  · rename_i hx
    cases h
    unfold State.clearAfterSense
    split
    · rename_i hk; exact .dinEmptySense hp ht hx hk
    · rename_i hk; exact .dinEmpty hp ht hx hk
  · rename_i hx
    split at h
    · rename_i hk
      unfold State.readThenSubmit at h
      simp only at h
      split at h
      · rename_i ho
        obtain ⟨hl, rfl⟩ := (State.withinBuf_next_iff _ _ _ _).1 h
        exact .dinReadOk hp ht hx hk ho hl _ rfl
      · rename_i ho
        cases h
        exact .dinReadFail hp ht hx hk (by simpa using ho)
    · rename_i hk
      obtain ⟨hl, rfl⟩ := (State.withinBuf_next_iff _ _ _ _).1 h
      exact .dinSubmit hp ht hx hk hl

theorem execTickDinWait_step (s t : State) (hp : s.phase = .dataInPhase) (ht : s.txState = .pending)
    (h : execTickDinWait s = .next t) : TickStep s t := by
  unfold execTickDinWait at h
  split at h
  · rename_i hv; cases h; exact .dinWait hp ht hv
  · rename_i hv
    cases h
    have hd := (State.verdict_done_iff _ _).1 hv
    unfold State.clearAfterSense
    split
    · rename_i hk; exact .dinDoneSense hp ht hd hk
    · rename_i hk; exact .dinDone hp ht hd hk
  · rename_i hv
    cases h
    unfold State.dataInTimeout
    rw [State.takeError_eq]
    exact .dinTimeout hp ht hv _ rfl

theorem execTickDoutArm_step (s t : State) (hp : s.phase = .dataOutPhase) (hr : s.rxArmed = false)
    (h : execTickDoutArm s = .next t) : TickStep s t := by
  unfold execTickDoutArm at h
  split at h
  · rename_i hx; cases h; exact .doutEmpty hp hr hx
  · rename_i hx; cases h; exact .doutArm hp hr hx

theorem State.finishReception_eq (s : State) :
    s.finishReception =
      if s.flashOk then
        { s with
          dataDone := false, rxArmed := false, xferred := s.rxCount, phase := .statusPhase,
          flash := Memory.writeVia (flashPlace s.cfg) s.flash s.flashOff.toNat (s.loadBuf s.xferLen.toNat),
          calls := .flashWrite s.flashOff (s.loadBuf s.xferLen.toNat) s.xferLen s.flashOk :: s.calls }
      else
        { s with
          dataDone := false, rxArmed := false, xferred := s.rxCount, phase := .statusPhase, cswStatus := 0x01,
          flash := Memory.writeVia (flashPlace s.cfg) s.flash s.flashOff.toNat (s.freeBytes s.xferLen.toNat),
          draws := s.draws + s.xferLen.toNat,
          calls := .flashWrite s.flashOff (s.loadBuf s.xferLen.toNat) s.xferLen s.flashOk :: s.calls,
          senseValid := true, senseKey := s.cfg.senseMediumWrite.key, senseAsc := s.cfg.senseMediumWrite.asc,
          senseAscq := s.cfg.senseMediumWrite.ascq } := by
  obtain ⟨⟩ := s
  rename_i ok _ _ _ _
  cases ok <;> rfl

theorem execTickDoutWait_step (s t : State) (hp : s.phase = .dataOutPhase) (hr : s.rxArmed = true)
    (h : execTickDoutWait s = .next t) : TickStep s t := by
  unfold execTickDoutWait at h
  split at h
  · rename_i hd
    obtain ⟨hl, rfl⟩ := (State.withinBuf_next_iff _ _ _ _).1 h
    rw [State.finishReception_eq]
    split
    · rename_i ho; exact .doutOk hp hr hd ho hl
    · rename_i ho; exact .doutFail hp hr hd (by simpa using ho) hl
  · rename_i hd
    split at h
    · rename_i he
      cases h
      unfold State.dataOutTimeout
      rw [State.takeError_eq]
      exact .doutTimeout hp hr (by simpa using hd) he _ rfl
    · rename_i he
      cases h
      exact .doutWait hp hr (by simpa using hd) (by simpa using he)

theorem execTickStsWait_step (s t : State) (hp : s.phase = .statusPhase) (ht : s.txState = .pending)
    (h : execTickStsWait s = .next t) : TickStep s t := by
  unfold execTickStsWait at h
  split at h
  · rename_i hv; cases h; exact .stsWait hp ht hv
  · rename_i hv; cases h; exact .stsDone hp ht ((State.verdict_done_iff _ _).1 hv)
  · rename_i hv; cases h; exact .stsTimeout hp ht hv

/-- Everything a tick that goes on can do. -/
theorem tickOnce_step (s t : State) (h : tickOnce s = .next t) : TickStep s t := by
  rw [tickOnce_eq] at h
  split at h <;> rename_i hp
  · unfold execTickAwait at h
    split at h
    · rename_i hn
      split at h <;> cases h
      rename_i c hc
      exact .awaitTake hp hn c hc
    · rename_i hn; cases h; exact .awaitIdle hp (by simpa using hn)
  · exact execTickCommand_step s t hp h
  · split at h <;> rename_i ht
    · exact execTickDinStart_step s t hp ht h
    · exact execTickDinWait_step s t hp (by cases hs : s.txState <;> simp_all) h
  · split at h <;> rename_i hr
    · exact execTickDoutArm_step s t hp hr h
    · exact execTickDoutWait_step s t hp (by simpa using hr) h
  · cases h; exact .noData hp
  · split at h <;> rename_i ht
    · cases h; exact .stsStart hp ht
    · exact execTickStsWait_step s t hp (by cases hs : s.txState <;> simp_all) h
  · cases h; exact .bad (.inl hp)
  · cases h; exact .bad (.inr hp)

/-- What an event that goes on leaves (R160-R167). -/
inductive EventStep (s : State) : State → Prop where
  | unchanged : EventStep s s
  | recorded (f : GhostFault) (hf : f ≠ .badPhase) : EventStep s { s with faults := s.faults.insert f }
  | posted (raw : Bytes 31) (c : Cbw) (hc : decodeCbw raw = some c) (ho : s.overlap = false) :
      EventStep s { s with mbox := raw, newCbw := true }
  | received (bytes : List Byte) (n : Nat) (faults : FaultSet) (ha : s.rxArmed = true) (hd : s.dataDone = false)
      (hn : n ≤ bytes.length) (hl : n ≤ s.rxLen.toNat - s.rxCount.toNat)
      (hb : n = 0 ∨ s.rxCount.toNat + n ≤ s.cfg.bufBytes)
      (hf : faults = s.faults ∨ faults = s.faults.insert .dataOverrun) :
      EventStep s { s with
        buf := Memory.writeVia id s.buf s.rxCount.toNat (bytes.take n),
        rxCount := BitVec.ofNat 32 (s.rxCount.toNat + n),
        dataDone := decide (BitVec.ofNat 32 (s.rxCount.toNat + n) = s.rxLen), faults := faults }
  | completed (ht : s.txState = .pending) (hd : s.txDone = false) : EventStep s { s with txDone := true }

theorem acceptCbw_step (s : State) (raw : Bytes 31) (c : Cbw) (hc : decodeCbw raw = some c) :
    EventStep s (s.acceptCbw raw) := by
  unfold State.acceptCbw
  split
  · exact .recorded .cbwOverlap (by decide)
  · rename_i ho; exact .posted raw c hc (by simpa using ho)

theorem State.receive_eq (s : State) (bytes : List Byte) (hd : s.dataDone = false) :
    s.receive bytes =
      { s with
        buf := Memory.writeVia id s.buf s.rxCount.toNat (bytes.take (s.acceptCount bytes.length)),
        rxCount := BitVec.ofNat 32 (s.rxCount.toNat + s.acceptCount bytes.length),
        dataDone := decide (BitVec.ofNat 32 (s.rxCount.toNat + s.acceptCount bytes.length) = s.rxLen),
        faults := if s.acceptCount bytes.length < bytes.length then s.faults.insert .dataOverrun else s.faults } := by
  unfold State.receive
  simp only
  generalize s.acceptCount bytes.length = n
  split <;> unfold State.noteLastByte <;> split <;> rename_i h2 <;>
    simp only [State.raiseFault, State.storeBuf] at h2 ⊢ <;> simp only [h2, hd] <;> simp

/-- Everything an event that goes on can do. -/
theorem event_step (s t : State) (e : UsbEvent) (h : exec (decodeEvent e) s = .next t) : EventStep s t := by
  cases e with
  | reserved => cases h; exact .recorded .eventReserved (by decide)
  | cbw raw =>
    replace h : execEvCbw raw s = .next t := h
    unfold execEvCbw at h
    split at h <;> cases h
    · rename_i c hc; exact acceptCbw_step s raw c hc
    · exact .unchanged
  | data bytes =>
    replace h : execEvData bytes s = .next t := h
    unfold execEvData at h
    split at h
    · split at h <;> cases h
      · exact .recorded .dataUnexpected (by decide)
      · exact .unchanged
    · rename_i hg
      simp only [not_or, Bool.not_eq_false, Bool.not_eq_true] at hg
      obtain ⟨hb, rfl⟩ := (State.withinBuf_next_iff _ _ _ _).1 h
      rw [State.receive_eq s bytes hg.2]
      refine .received bytes _ _ hg.1 hg.2 (Nat.min_le_left _ _) (Nat.min_le_right _ _) ?_ ?_
      · split at hb
        · rename_i h0; exact .inl h0
        · exact .inr hb
      · split
        · exact .inr rfl
        · exact .inl rfl
  | txDone =>
    replace h : execEvTxdone s = .next t := h
    unfold execEvTxdone at h
    split at h <;> cases h
    · exact .recorded .txdoneSpurious (by decide)
    · rename_i hg
      simp only [not_or, Bool.not_eq_true] at hg
      exact .completed (by cases hs : s.txState <;> simp_all) hg.2

end Sys2Proof.Machine
end

