-- ==== Sys2Proof/Tests/Slice0.lean ====
section
/-! SUPPORT. The model's own tests: the WellFormed smoke, one word decoded for every constructor, the spec's vectors on single
steps (95_test_vectors.md section 2), and a witness for the hypotheses of every statement. -/

namespace Sys2Proof.Tests

open Sys2Proof Sys2Proof.Machine

/-! Helpers -/

/-- The outcome is a next state with a property. -/
def nextIs (r : Result) (p : State → Bool) : Bool :=
  match r with
  | .next t => p t
  | .fault _ => false
  | .refused _ => false

/-- A byte sequence decodes to an instruction. -/
def decodesTo (f : Format) (bs : List Byte) (i : Instr) : Bool :=
  match decode f bs with
  | .ok j => decide (j = i)
  | .error _ => false

/-- The state of the spec's test configuration (TC). -/
abbrev tc : State := State.reset

/-- TC with blocks of one byte, so that block transfers stay small. -/
def smallConfig : Config := { Config.standard with blockSize := 1, bufBytes := 65535, flashSize := 16, tDoutMs := some 50 }

/-- The start state under the small configuration. -/
abbrev small : State := { State.reset with cfg := smallConfig }

/-- The CBW of vector V-COD-1: INQUIRY, tag 0x12345678, 36 bytes requested. -/
def inquiryCbw : Bytes 31 :=
  ⟨[0x55, 0x53, 0x42, 0x43, 0x78, 0x56, 0x34, 0x12, 0x24, 0, 0, 0, 0x80, 0, 6, 0x12, 0, 0, 0, 0x24, 0, 0, 0, 0, 0, 0, 0, 0,
    0, 0, 0], rfl⟩

/-- The CBW of vector V-COD-2: the last signature byte is wrong. -/
def badCbw : Bytes 31 :=
  ⟨[0x55, 0x53, 0x42, 0x44, 0x78, 0x56, 0x34, 0x12, 0x24, 0, 0, 0, 0x80, 0, 6, 0x12, 0, 0, 0, 0x24, 0, 0, 0, 0, 0, 0, 0, 0,
    0, 0, 0], rfl⟩

/-- The decoded CBW of vector V-COD-1. -/
def inquiryFields : Cbw :=
  { tag := 0x12345678, dtl := 36, flags := 0x80, lun := 0, cblen := 6, cb := Bytes.fit 16 [0x12, 0, 0, 0, 0x24] }

/-- Fifteen zero bytes. -/
def zeros15 : Bytes 15 := Bytes.fit 15 []

/-- The operands of V-INT-25: the last LBA, one block. -/
def lastBlock : BlockArgs :=
  { flags := 0, lba := 0xFFFFFFFF, group := 0, blocks := 1, control := 0, rest := Bytes.fit 6 [] }

/-- The operands of V-INT-27: LBA 2, one block. -/
def block2 : BlockArgs := { flags := 0, lba := 2, group := 0, blocks := 1, control := 0, rest := Bytes.fit 6 [] }

/-- A latch that holds (5, 20, 00). -/
def latched (s : State) : State := { s with senseValid := true, senseKey := 0x5, senseAsc := 0x20, senseAscq := 0x00 }

/-! WellFormed: every check refuses an ill-formed term -/

theorem test_wf_refuses_named_opcode_as_invalid : (Instr.invalid 0x12 zeros15).wf = false := by decide
theorem test_wf_refuses_noop_row_as_invalid : (Instr.invalid 0x1B zeros15).wf = false := by decide
theorem test_wf_refuses_signed_cbw_as_malformed : (Instr.cbwMalformed inquiryCbw).wf = false := by decide
theorem test_wf_refuses_overlong_data (bytes : List Byte) (h : bytes.length = 2 ^ 32) : (Instr.evData bytes).wf = false := by
  simp [Instr.wf, h]
theorem test_wf_accepts_unnamed_opcode : (Instr.invalid 0xFF zeros15).wf = true := by decide

/-! Decoding: one word written out for every constructor (R71, R79, R81, R87, the F-TICK rows) -/

theorem test_decode_testUnitReady : decodesTo .cdb [0x00, 0, 0, 0, 0, 0, 0, 0, 0, 0, 0, 0, 0, 0, 0, 0] (.testUnitReady zeros15) = true := by decide
theorem test_decode_requestSense : decodesTo .cdb [0x03, 0, 0, 0, 0x12, 0, 0, 0, 0, 0, 0, 0, 0, 0, 0, 0] (.requestSense (Bytes.fit 15 [0, 0, 0, 0x12])) = true := by decide
theorem test_decode_inquiry : decodesTo .cdb [0x12, 1, 0x80, 0, 0x24, 0, 0, 0, 0, 0, 0, 0, 0, 0, 0, 0] (.inquiry (Bytes.fit 15 [1, 0x80, 0, 0x24])) = true := by decide
theorem test_decode_modeSense6 : decodesTo .cdb [0x1A, 0, 0x3F, 0, 0xC0, 0, 0, 0, 0, 0, 0, 0, 0, 0, 0, 0] (.modeSense6 (Bytes.fit 15 [0, 0x3F, 0, 0xC0])) = true := by decide
theorem test_decode_startStopUnit : decodesTo .cdb [0x1B, 0, 0, 0, 2, 0, 0, 0, 0, 0, 0, 0, 0, 0, 0, 0] (.startStopUnit (Bytes.fit 15 [0, 0, 0, 2])) = true := by decide
theorem test_decode_preventAllowMediumRemoval : decodesTo .cdb [0x1E, 0, 0, 0, 1, 0, 0, 0, 0, 0, 0, 0, 0, 0, 0, 0] (.preventAllowMediumRemoval (Bytes.fit 15 [0, 0, 0, 1])) = true := by decide
theorem test_decode_readCapacity10 : decodesTo .cdb [0x25, 0, 0, 0, 0, 0, 0, 0, 0, 0, 0, 0, 0, 0, 0, 0] (.readCapacity10 zeros15) = true := by decide
theorem test_decode_read10 : decodesTo .cdb [0x28, 0, 0xFF, 0xFF, 0xFF, 0xFF, 0, 0, 1, 0, 0, 0, 0, 0, 0, 0] (.read10 lastBlock) = true := by decide
theorem test_decode_write10 :
    decodesTo .cdb [0x2A, 0x10, 0x01, 0x02, 0x03, 0x04, 0x05, 0xAB, 0xCD, 0x06, 1, 2, 3, 4, 5, 6]
      (.write10 { flags := 0x10, lba := 0x01020304, group := 0x05, blocks := 0xABCD, control := 0x06,
                  rest := Bytes.fit 6 [1, 2, 3, 4, 5, 6] }) = true := by decide
theorem test_decode_invalid : decodesTo .cdb [0x5A, 0, 0, 0, 0, 0, 0, 0, 0, 0, 0, 0, 0, 0, 0, 0] (.invalid 0x5A zeros15) = true := by decide
theorem test_decode_cbwValid : decodesTo .cbw inquiryCbw.toList (.cbwValid inquiryFields) = true := by decide
theorem test_decode_cbwMalformed : decodesTo .cbw badCbw.toList (.cbwMalformed badCbw) = true := by decide
theorem test_decode_evReserved : decodesTo .event [0x00] (.evReserved) = true := by decide
theorem test_decode_evCbw : decodesTo .event (0x01 :: inquiryCbw.toList) (.evCbw inquiryCbw) = true := by decide
theorem test_decode_evData : decodesTo .event [0x02, 3, 0, 0, 0, 0xAA, 0xBB, 0xCC] (.evData [0xAA, 0xBB, 0xCC]) = true := by decide
theorem test_decode_evTxdone : decodesTo .event [0x03] (.evTxdone) = true := by decide
theorem test_decode_tickAwait : decodesTo .tick [0x0] (.tickAwait) = true := by decide
theorem test_decode_tickCommand : decodesTo .tick [0x2] (.tickCommand) = true := by decide
theorem test_decode_tickDinStart : decodesTo .tick [0x4] (.tickDinStart) = true := by decide
theorem test_decode_tickDinWait : decodesTo .tick [0x5] (.tickDinWait) = true := by decide
theorem test_decode_tickDoutArm : decodesTo .tick [0x6] (.tickDoutArm) = true := by decide
theorem test_decode_tickDoutWait : decodesTo .tick [0x7] (.tickDoutWait) = true := by decide
theorem test_decode_tickNodata : decodesTo .tick [0x8] (.tickNodata) = true := by decide
theorem test_decode_tickStsStart : decodesTo .tick [0xA] (.tickStsStart) = true := by decide
theorem test_decode_tickStsWait : decodesTo .tick [0xB] (.tickStsWait) = true := by decide
theorem test_decode_tickBad : decodesTo .tick [0xC] (.tickBad) = true := by decide
theorem test_decode_reset : decodesTo .reset [] (.reset) = true := by decide
theorem test_decode_tick_high_code : decodesTo .tick [0xF] .tickBad = true := by decide
theorem test_decode_refuses_event_kind_4 : (match decode .event [0x04] with | .ok _ => none | .error r => some r) = some .kindBits := by decide
theorem test_decode_refuses_short_data :
    (match decode .event [0x02, 2, 0, 0, 0, 7] with | .ok _ => none | .error r => some r) = some .wrongLength := by decide

/-! Codec (section 2.1) -/

theorem test_cod_1 : decodeCbw inquiryCbw = some inquiryFields := by decide
theorem test_cod_2 : decodeCbw badCbw = none := by decide
theorem test_cod_8 : (encodeCsw 0 512 0x01).toList = [0x55, 0x53, 0x42, 0x53, 0, 0, 0, 0, 0, 2, 0, 0, 1] := by decide
theorem test_cod_9 : (encodeCsw 4 188 0x00).toList = [0x55, 0x53, 0x42, 0x53, 4, 0, 0, 0, 0xBC, 0, 0, 0, 0] := by decide

/-! Commands (section 2.2) -/

/-- V-INT-1. -/
theorem test_tur_passes :
    nextIs (exec (.testUnitReady zeros15) tc) (fun t => decide (t.cswStatus = 0x00 ∧ t.hkind = .tur ∧ t.phase = .noDataPhase)) = true := by decide
/-- V-INT-2. -/
theorem test_tur_fails_when_latched :
    nextIs (exec (.testUnitReady zeros15) (latched tc)) (fun t => decide (t.cswStatus = 0x01 ∧ t.senseKey = 0x5 ∧ t.senseValid = true)) = true := by decide
/-- V-INT-8 and V-LAT-7. -/
theorem test_request_sense_payload :
    nextIs (exec (.requestSense zeros15) (latched { tc with curDtl := 252 })) (fun t => decide (t.xferLen = 18 ∧ t.loadBuf 18 = [0x70, 0, 5, 0, 0, 0, 0, 0x0A, 0, 0, 0, 0, 0x20, 0, 0, 0, 0, 0])) = true := by decide
/-- V-INT-6 on an empty latch (V-LAT-8). -/
theorem test_request_sense_short :
    nextIs (exec (.requestSense zeros15) { tc with curDtl := 8 }) (fun t => decide (t.xferLen = 8 ∧ t.loadBuf 8 = [0x70, 0, 0, 0, 0, 0, 0, 0x0A] ∧ t.phase = .dataInPhase)) = true := by decide
/-- V-INT-12. -/
theorem test_inquiry_short :
    nextIs (exec (.inquiry zeros15) { tc with curDtl := 5 }) (fun t => decide (t.xferLen = 5 ∧ t.loadBuf 5 = [0x00, 0x00, 0x00, 0x02, 0x1F])) = true := by decide
/-- V-INT-13. -/
theorem test_inquiry_long :
    nextIs (exec (.inquiry zeros15) { tc with curDtl := 255 }) (fun t => decide (t.xferLen = 36 ∧ t.buf.read 35 = 0x30 ∧ t.buf.read 36 = 0x00)) = true := by decide
/-- V-INT-15. -/
theorem test_mode_sense :
    nextIs (exec (.modeSense6 zeros15) { tc with curDtl := 192 }) (fun t => decide (t.xferLen = 4 ∧ t.loadBuf 4 = [0x03, 0x00, 0x80, 0x00])) = true := by decide
/-- V-INT-16. -/
theorem test_mode_sense_short :
    nextIs (exec (.modeSense6 zeros15) { tc with curDtl := 2 }) (fun t => decide (t.xferLen = 2 ∧ t.hkind = .modesense6)) = true := by decide
/-- V-INT-17. -/
theorem test_read_capacity_count :
    nextIs (exec (.readCapacity10 zeros15) { tc with curDtl := 8 }) (fun t => decide (t.loadBuf 8 = [0x00, 0x00, 0x40, 0x00, 0x00, 0x00, 0x02, 0x00] ∧ t.calls = [.flashSize])) = true := by decide
/-- V-INT-18, with the partial block of V-INT-19. -/
theorem test_read_capacity_last :
    nextIs (exec (.readCapacity10 zeros15) { tc with curDtl := 8, cfg := { Config.standard with readcapMode := .lastLba, flashSize := 8388908 } }) (fun t => decide (t.loadBuf 8 = [0x00, 0x00, 0x3F, 0xFF, 0x00, 0x00, 0x02, 0x00])) = true := by decide
/-- V-INT-20. -/
theorem test_start_stop_noop :
    nextIs (exec (.startStopUnit zeros15) (latched tc)) (fun t => decide (t.cswStatus = 0x00 ∧ t.hkind = .noop ∧ t.senseKey = 0x5)) = true := by decide
/-- V-INT-30. -/
theorem test_start_stop_unlisted :
    nextIs (exec (.startStopUnit zeros15) { tc with cfg := { Config.standard with noopOpcodes := [0x1E] } }) (fun t => decide (t.cswStatus = 0x01 ∧ t.hkind = .invalid ∧ t.senseKey = 0x5 ∧ t.senseAsc = 0x20)) = true := by decide
/-- V-INT-21. -/
theorem test_prevent_allow_noop :
    nextIs (exec (.preventAllowMediumRemoval zeros15) tc) (fun t => decide (t.cswStatus = 0x00 ∧ t.hkind = .noop ∧ t.phase = .noDataPhase)) = true := by decide
/-- V-INT-25, not capped as in V-INT-23. -/
theorem test_read10_last_lba :
    nextIs (exec (.read10 lastBlock) { tc with curDtl := 100 }) (fun t => decide (t.flashOff = 0xFFFFFE00 ∧ t.xferLen = 512 ∧ t.phase = .dataInPhase)) = true := by decide
/-- R80: 65535 blocks do not wrap; V-INT-26's LBA is not checked. -/
theorem test_read10_most_blocks :
    nextIs (exec (.read10 { lastBlock with blocks := 0xFFFF, lba := 16384 }) tc) (fun t => decide (t.xferLen = 33553920 ∧ t.flashOff = 8388608)) = true := by decide
/-- V-INT-27, V-SEQ-4. -/
theorem test_write10 :
    nextIs (exec (.write10 block2) tc) (fun t => decide (t.flashOff = 1024 ∧ t.xferLen = 512 ∧ t.phase = .dataOutPhase ∧ t.hkind = .write10)) = true := by decide
/-- V-INT-10. -/
theorem test_invalid_overwrites :
    nextIs (exec (.invalid 0x5A zeros15) { tc with senseValid := true, senseKey := 0x3, senseAsc := 0x11 }) (fun t => decide (t.cswStatus = 0x01 ∧ t.senseKey = 0x5 ∧ t.senseAsc = 0x20 ∧ t.phase = .noDataPhase)) = true := by decide

/-! Events (section 2.4) -/

/-- V-EV-1. -/
theorem test_cbw_valid_posts :
    nextIs (exec (.cbwValid inquiryFields) tc) (fun t => decide (t.mbox = inquiryCbw ∧ t.newCbw = true ∧ t.faults = .empty)) = true := by decide
/-- V-EV-5. -/
theorem test_cbw_valid_overlaps :
    nextIs (exec (.cbwValid inquiryFields) { tc with phase := .statusPhase }) (fun t => decide (t.faults.cbwOverlap = true ∧ t.newCbw = false)) = true := by decide
/-- V-EV-2. -/
theorem test_cbw_malformed :
    nextIs (exec (.cbwMalformed badCbw) tc) (fun t => decide (t = tc)) = true := by decide
/-- V-EV-15. -/
theorem test_ev_reserved :
    nextIs (exec (.evReserved) tc) (fun t => decide (t.faults.eventReserved = true ∧ { t with faults := .empty } = tc)) = true := by decide
/-- V-EV-6. -/
theorem test_ev_cbw_while_csw_pending :
    nextIs (exec (.evCbw inquiryCbw) { tc with phase := .statusPhase, txState := .pending }) (fun t => decide (t.newCbw = true ∧ t.faults = .empty)) = true := by decide
/-- V-EV-2 and R210: the signature is checked before the overlap. -/
theorem test_ev_cbw_malformed_in_overlap :
    nextIs (exec (.evCbw badCbw) { tc with phase := .dataInPhase, newCbw := true }) (fun t => decide (t.faults = .empty ∧ t.phase = .dataInPhase)) = true := by decide
/-- V-EV-9. -/
theorem test_ev_data_overrun :
    nextIs (exec (.evData (List.replicate 20 0xEE)) { tc with rxArmed := true, rxLen := 512, rxCount := 500, phase := .dataOutPhase }) (fun t => decide (t.rxCount = 512 ∧ t.dataDone = true ∧ t.faults.dataOverrun = true ∧ t.buf.read 499 = 0 ∧ t.buf.read 511 = 0xEE ∧ t.buf.read 512 = 0)) = true := by decide
/-- V-EV-10. -/
theorem test_ev_data_unexpected :
    nextIs (exec (.evData [1]) tc) (fun t => decide (t.faults.dataUnexpected = true ∧ t.buf = [])) = true := by decide
/-- V-EV-12. -/
theorem test_ev_txdone :
    nextIs (exec (.evTxdone) { tc with txState := .pending }) (fun t => decide (t.txDone = true ∧ t.faults = .empty)) = true := by decide
/-- V-EV-14. -/
theorem test_ev_txdone_again :
    nextIs (exec (.evTxdone) { tc with txState := .pending, txDone := true }) (fun t => decide (t.txDone = true ∧ t.faults.txdoneSpurious = true)) = true := by decide

/-! Ticks (section 2.3) -/

/-- V-SEQ-2. -/
theorem test_tick_await_takes :
    nextIs (exec (.tickAwait) { tc with mbox := inquiryCbw, newCbw := true, hkind := .write10, xferred := 7 }) (fun t => decide (t.phase = .commandPhase ∧ t.curTag = 0x12345678 ∧ t.curDtl = 36 ∧ t.newCbw = false ∧ t.hkind = .none ∧ t.xferred = 0 ∧ byteAt t.curCb.toList 0 = 0x12)) = true := by decide
/-- V-SEQ-1. -/
theorem test_tick_await_idle :
    nextIs (exec (.tickAwait) tc) (fun t => decide (t = tc)) = true := by decide
/-- V-SEQ-3. -/
theorem test_tick_command :
    nextIs (exec (.tickCommand) { tc with phase := .commandPhase, curCb := Bytes.fit 16 [0x12], curDtl := 36 }) (fun t => decide (t.phase = .dataInPhase ∧ t.hkind = .inquiry ∧ t.xferLen = 36)) = true := by decide
/-- V-SEQ-7, on two bytes. -/
theorem test_tick_din_start_submits :
    nextIs (exec (.tickDinStart) { tc with phase := .dataInPhase, hkind := .modesense6, xferLen := 2, buf := [(0, 0x03)], clock := 100, txDone := true }) (fun t => decide (t.txState = .pending ∧ t.txKind = .data ∧ t.txStart = 100 ∧ t.txDone = false ∧ t.calls = [.txSubmit .data [0x03, 0x00] 2 1000])) = true := by decide
/-- V-SEQ-8. -/
theorem test_tick_din_start_flash_fails :
    nextIs (exec (.tickDinStart) { tc with phase := .dataInPhase, hkind := .read10, xferLen := 512, flashOk := false, xferred := 9 }) (fun t => decide (t.phase = .statusPhase ∧ t.cswStatus = 0x01 ∧ t.xferred = 0 ∧ t.senseKey = 0x3 ∧ t.senseAsc = 0x11 ∧ t.txState = .idle)) = true := by decide
/-- V-SEQ-11 across the clock's wrap (V-SEQ-13b). -/
theorem test_tick_din_wait_expires :
    nextIs (exec (.tickDinWait) (latched { tc with phase := .dataInPhase, txState := .pending, txStart := 0xFFFFFF00, clock := 0x000002E8 })) (fun t => decide (t.phase = .statusPhase ∧ t.txState = .idle ∧ t.cswStatus = 0x01 ∧ t.senseKey = 0x5 ∧ t.calls = [.txAbort])) = true := by decide
/-- V-SEQ-13. -/
theorem test_tick_din_wait_waits :
    nextIs (exec (.tickDinWait) { tc with phase := .dataInPhase, txState := .pending, txStart := 0xFFFFFF00, clock := 0x000002E7 }) (fun t => decide (t.phase = .dataInPhase ∧ t.calls = [])) = true := by decide
/-- V-SEQ-20. -/
theorem test_tick_dout_arm :
    nextIs (exec (.tickDoutArm) { tc with phase := .dataOutPhase, xferLen := 1024, clock := 10, rxCount := 5 }) (fun t => decide (t.rxLen = 1024 ∧ t.rxCount = 0 ∧ t.rxStart = 10 ∧ t.rxArmed = true ∧ t.calls = [.rxArm 1024])) = true := by decide
/-- V-SEQ-21. -/
theorem test_tick_dout_arm_nothing :
    nextIs (exec (.tickDoutArm) { tc with phase := .dataOutPhase }) (fun t => decide (t.phase = .statusPhase ∧ t.rxArmed = false ∧ t.calls = [])) = true := by decide
/-- V-SEQ-23, wrapping at the end of a 16-byte flash (R57). -/
theorem test_tick_dout_wait_writes :
    nextIs (exec (.tickDoutWait) { small with phase := .dataOutPhase, rxArmed := true, dataDone := true, rxLen := 2, rxCount := 2, xferLen := 2, flashOff := 15, buf := [(0, 0xAA), (1, 0xBB)] }) (fun t => decide (t.flash = [(0, 0xBB), (15, 0xAA)] ∧ t.xferred = 2 ∧ t.phase = .statusPhase ∧ t.rxArmed = false ∧ t.dataDone = false)) = true := by decide
/-- V-SEQ-25. -/
theorem test_tick_dout_wait_expires :
    nextIs (exec (.tickDoutWait) { small with phase := .dataOutPhase, rxArmed := true, rxLen := 200, rxCount := 100, clock := 50 }) (fun t => decide (t.xferred = 100 ∧ t.cswStatus = 0x01 ∧ t.senseKey = 0xB ∧ t.phase = .statusPhase ∧ t.calls = [.rxDisarm] ∧ t.flash = [])) = true := by decide
/-- V-SEQ-6. -/
theorem test_tick_nodata :
    nextIs (exec (.tickNodata) { tc with phase := .noDataPhase, xferred := 3 }) (fun t => decide (t.phase = .statusPhase ∧ t.xferred = 0)) = true := by decide
/-- V-SEQ-14 with V-SEQ-15's residue. -/
theorem test_tick_sts_start :
    nextIs (exec (.tickStsStart) { tc with phase := .statusPhase, curTag := 0x12345678, curDtl := 192, xferred := 4, clock := 7 }) (fun t => decide (t.cswBuf.toList = [0x55, 0x53, 0x42, 0x53, 0x78, 0x56, 0x34, 0x12, 0xBC, 0, 0, 0, 0] ∧ t.txKind = .csw ∧ t.txStart = 7)) = true := by decide
/-- V-SEQ-16. -/
theorem test_tick_sts_start_clamps :
    nextIs (exec (.tickStsStart) { tc with phase := .statusPhase, curDtl := 100, xferred := 512, cswStatus := 0x01 }) (fun t => decide (t.cswBuf.toList.drop 8 = [0, 0, 0, 0, 1])) = true := by decide
/-- V-SEQ-19. -/
theorem test_tick_sts_wait_expires :
    nextIs (exec (.tickStsWait) (latched { tc with phase := .statusPhase, txState := .pending, clock := 1000, cswStatus := 0x01 })) (fun t => decide (t.phase = .awaitingCbw ∧ t.calls = [.txAbort] ∧ t.senseKey = 0x5 ∧ t.cswStatus = 0x01)) = true := by decide
/-- V-SEQ-18, and R147. -/
theorem test_tick_sts_wait_done :
    nextIs (exec (.tickStsWait) { tc with phase := .statusPhase, txState := .pending, txDone := true, clock := 5000 }) (fun t => decide (t.phase = .awaitingCbw ∧ t.txDone = false ∧ t.txState = .idle ∧ t.calls = [])) = true := by decide
/-- V-SEQ-26. -/
theorem test_tick_bad :
    nextIs (exec (.tickBad) { tc with phase := .reserved6 }) (fun t => decide (t.faults.badPhase = true ∧ t.phase = .reserved6)) = true := by decide
/-- R230, R207. -/
theorem test_reset_keeps_faults :
    nextIs (exec (.reset) { latched tc with phase := .reserved7, faults := FaultSet.empty.insert .badPhase, curTag := 9, flash := [(3, 1)] }) (fun t => decide (t.phase = .awaitingCbw ∧ t.senseValid = false ∧ t.faults.badPhase = true ∧ t.curTag = 0 ∧ t.flash = [(3, 1)])) = true := by decide

/-! The step and the placed instruction -/

/-- A tick listed as a move advances the clock and runs the tick of the phase. -/
theorem test_step_tick :
    nextIs (step { tc with pending := [.tick 5 true], clock := 0xFFFFFFFE, phase := .noDataPhase })
      (fun t => decide (t.clock = 3 ∧ t.phase = .statusPhase ∧ t.pending = [])) = true := by decide
/-- A bus reset is not seen by default (R231). -/
theorem test_step_bus_reset :
    nextIs (step { tc with pending := [.busReset], phase := .noDataPhase }) (fun t => decide (t.phase = .noDataPhase)) =
      true := by decide
/-- Once a ghost fault is recorded nothing is selected (R207). -/
theorem test_step_faulted :
    ({ tc with faults := { FaultSet.empty with cbwOverlap := true }, pending := [.tick 0 true] } : State).fetch.1 = none := by
  decide
/-- A map supplied for the offsets beyond a flash of 16 bytes, and an offset inside (R57). -/
theorem test_flash_map :
    flashPlace { smallConfig with flashAddrMap := .external [⟨16, 8, 4⟩] } 23 = 11 ∧
      flashPlace { smallConfig with flashAddrMap := .external [⟨16, 8, 4⟩] } 15 = 15 := by decide
/-- The word of READ(10) is placed as the command taken, and the next step dispatches it. -/
theorem test_fetch_word_read10 :
    nextIs (step (tc.withFetchWord 8 0x28)) (fun t => decide (t.hkind = .read10 ∧ t.phase = .dataInPhase)) = true := by
  decide
/-- A signed wrapper is placed as the event that delivers it. -/
theorem test_fetch_word_cbw :
    nextIs (step (tc.withFetchWord 32 0x43425355)) (fun t => decide (t.newCbw = true)) = true := by decide

/-! Witnesses: for each statement with hypotheses, a state and operands that meet them together, one for each clause -/

theorem smallConfig_wf : smallConfig.wf = true := by decide

/-- A command taken: INQUIRY in `CommandPhase`. -/
abbrev taken : State := { small with phase := .commandPhase, curCb := Bytes.fit 16 [0x12], curDtl := 36 }
/-- A READ(10) of two bytes about to start its data stage. -/
abbrev readStage : State := { small with phase := .dataInPhase, hkind := .read10, xferLen := 2, flashOff := 15 }
/-- Two bytes of data-in in flight. -/
abbrev dinPending : State :=
  { readStage with txState := .pending, calls := [.txSubmit .data [0, 0] 2 1000] }
/-- A CSW in flight, and the next CBW already in the mailbox. -/
abbrev cswPending : State :=
  { small with
    phase := .statusPhase, txState := .pending, txKind := .csw, newCbw := true, mbox := inquiryCbw,
    cswBuf := encodeCsw 0 0 0, calls := [.txSubmit .csw (encodeCsw 0 0 0).toList 13 1000] }
/-- A reception of two bytes with one still missing. -/
abbrev receiving : State :=
  { small with phase := .dataOutPhase, hkind := .write10, rxArmed := true, rxLen := 2, rxCount := 1, xferLen := 2 }
/-- A reception of two bytes with both received. -/
abbrev received : State :=
  { receiving with rxCount := 2, dataDone := true, flashOff := 15, buf := [(0, 0xAA), (1, 0xBB)] }

theorem reset_inv : tc.Inv := by constructor <;> decide
theorem taken_inv : taken.Inv := by constructor <;> decide
theorem readStage_inv : readStage.Inv := by constructor <;> decide
theorem dinPending_inv : dinPending.Inv := by constructor <;> decide
theorem cswPending_inv : cswPending.Inv := by constructor <;> decide
theorem receiving_inv : receiving.Inv := by constructor <;> decide
/-- A CBW in the mailbox. -/
abbrev cbwPosted : State := { small with newCbw := true, mbox := inquiryCbw }
/-- A run with a ghost fault behind it. -/
abbrev faulted : State := { small with faults := { FaultSet.empty with eventReserved := true } }
/-- A configuration whose largest transfers do not fit a u32. -/
def wideConfig : Config := { Config.standard with blockSize := 131072, bufBytes := 8589803520 }
/-- A flash of 16 bytes with the offsets 16 to 23 at the places 4 to 11. -/
def mappedConfig : Config := { smallConfig with flashAddrMap := .external [⟨16, 8, 4⟩] }
theorem cbwPosted_inv : cbwPosted.Inv := by constructor <;> decide
theorem received_inv : received.Inv := by constructor <;> decide

theorem dinPending_inFlight : dinPending.InFlight := by
  refine fun _ => ⟨[0, 0], 2, 1000, [], rfl, fun _ => by decide, fun h => ?_⟩
  cases h
theorem cswPending_inFlight : cswPending.InFlight := by
  refine fun _ => ⟨(encodeCsw 0 0 0).toList, 13, 1000, [], rfl, fun h => ?_, fun _ => by decide⟩
  cases h

theorem witness_DecodeUndoesEncode :
    (Instr.evData [0xFF]).wf = true ∧ (Instr.invalid 0xFF zeros15).wf = true ∧ (Instr.cbwMalformed badCbw).wf = true ∧
      (Instr.write10 { block2 with blocks := 0xFFFF }).wf = true := by decide
theorem witness_EncodeUndoesDecode :
    Format.event ≠ .tick ∧ decode .event [0x02, 1, 0, 0, 0, 0xFF] = .ok (.evData [0xFF]) ∧
      decode .cbw badCbw.toList = .ok (.cbwMalformed badCbw) := ⟨by decide, rfl, rfl⟩
theorem witness_StepRunsSelectedOperation :
    (tc.cfg.wf = true ∧ tc.admitted) ∧
      (∀ m : Move, ({ tc with pending := [m] } : State).cfg.wf = true ∧ ({ tc with pending := [m] } : State).pending = [m]) ∧
      tc.pending = [] := ⟨⟨by decide, rfl⟩, fun _ => ⟨(by decide : tc.cfg.wf = true), rfl⟩, rfl⟩
theorem witness_ConfigurationRefused :
    Admissible tc.cfg ∧ ¬Admissible { Config.standard with blockSize := 3 } := by
  refine ⟨⟨⟨9, rfl⟩, by decide⟩, fun h => ?_⟩
  obtain ⟨⟨k, hk⟩, -⟩ := h
  match k, hk with
  | 0, h => simp at h
  | 1, h => simp at h
  | k + 2, h => simp [Nat.pow_succ] at h; omega
theorem witness_OpcodeMapAndDirector : tc.cfg.wf = true ∧ taken.cfg.wf = true := by decide
theorem witness_TestUnitReadyReportsLatch : ∃ t, exec (.testUnitReady zeros15) (latched tc) = .next t := ⟨_, rfl⟩
theorem witness_RequestSenseAnswers :
    ((latched tc).cfg.wf = true ∧ (latched tc).senseValid = true ∧ (latched tc).buf.wf = true) ∧
      tc.cfg.wf = true ∧ tc.senseValid = false ∧ tc.buf.wf = true := by decide
theorem witness_InquiryAndModeSenseAnswer : tc.cfg.wf = true ∧ tc.buf.wf = true := by decide
theorem witness_ReadCapacityAnswers :
    tc.cfg.wf = true ∧ { Config.standard with readcapMode := .lastLba }.wf = true ∧ tc.buf.wf = true := by decide
theorem witness_NoopOpcodesPass :
    (0x1B : Byte) ∈ tc.cfg.noopOpcodes ∧ (0x1E : Byte) ∈ tc.cfg.noopOpcodes ∧
      (0x5A : Byte) ∈ ({ Config.standard with noopOpcodes := [0x5A] } : Config).noopOpcodes := by decide
theorem witness_UnrecognizedOpcodeFails :
    (0xFF : Byte) ∉ tc.cfg.noopOpcodes ∧ (0x1B : Byte) ∉ ({ Config.standard with noopOpcodes := [0x1E] } : Config).noopOpcodes ∧
      (0x1E : Byte) ∉ ({ Config.standard with noopOpcodes := [] } : Config).noopOpcodes := by decide
/-- The first block size whose products leave the u32: 32767 blocks fit, 32768 do not, and the configuration is admitted. -/
theorem witness_BlockTransferOperands :
    wideConfig.wf = true ∧ (0x7FFF : Half).toNat * wideConfig.blockSize < 2 ^ 32 ∧
      ¬(0x8000 : Half).toNat * wideConfig.blockSize < 2 ^ 32 ∧ (block2.blocks.toNat * tc.cfg.blockSize < 2 ^ 32) := by decide
theorem witness_CbwPosted :
    decodeCbw inquiryCbw = some inquiryFields ∧ (tc.newCbw = false ∧ tc.phase = .awaitingCbw) ∧
      (let s : State := { cswPending with newCbw := false }
       s.newCbw = false ∧ s.phase = .statusPhase ∧ s.txState = .pending) := by decide
theorem witness_CbwOverlapRecorded :
    decodeCbw inquiryCbw = some inquiryFields ∧ cswPending.newCbw = true ∧ taken.phase = .commandPhase ∧
      readStage.phase = .dataInPhase ∧ receiving.phase = .dataOutPhase ∧
      ({ tc with phase := .noDataPhase } : State).phase = .noDataPhase ∧
      (let s : State := { tc with phase := .statusPhase }
       s.phase = .statusPhase ∧ s.txState = .idle) := by decide
theorem witness_MalformedCbwDropped : le32 badCbw.toList 0 ≠ 0x43425355 := by decide
theorem witness_DataAppended :
    receiving.rxArmed = true ∧ receiving.dataDone = false ∧ receiving.rxCount.toNat ≤ receiving.rxLen.toNat ∧
      receiving.rxLen.toNat ≤ receiving.cfg.bufBytes ∧ receiving.buf.wf = true ∧
      1 = min [0x11, 0x22].length (receiving.rxLen.toNat - receiving.rxCount.toNat) ∧
      0 = min ([] : List Byte).length (receiving.rxLen.toNat - receiving.rxCount.toNat) := by decide
theorem witness_UnexpectedDataDropped :
    tc.rxArmed = false ∧ received.dataDone = true ∧ ([1] : List Byte) ≠ [] ∧
      (receiving.rxArmed = true ∧ receiving.dataDone = false ∧ receiving.rxCount.toNat < receiving.rxLen.toNat) := by decide
theorem witness_TxDoneRecorded :
    (dinPending.txState = .pending ∧ dinPending.txDone = false) ∧ tc.txState = .idle ∧
      ({ dinPending with txDone := true } : State).txDone = true := by decide
theorem witness_ReservedEventAndPhaseRecorded :
    ({ tc with phase := .reserved6 } : State).phase = .reserved6 ∧
      ({ tc with phase := .reserved7 } : State).phase = .reserved7 := by decide
theorem witness_IsrWritesOnlyItsFields :
    (Instr.evData [1, 2, 3]).format = .event ∧ (∃ t, exec (.evData [1, 2, 3]) receiving = .next t) ∧
      receiving.buf.wf = true ∧ (Instr.cbwValid inquiryFields).format = .cbw ∧
      (∃ t, exec (.cbwValid inquiryFields) cswPending = .next t) ∧ tc.rxArmed = false ∧ received.dataDone = true :=
  ⟨rfl, ⟨_, rfl⟩, by decide, rfl, ⟨_, rfl⟩, rfl, rfl⟩
theorem witness_TickAwaitTakesCbw :
    (cswPending.newCbw = true ∧ le32 cswPending.mbox.toList 0 = 0x43425355) ∧ tc.newCbw = false := by decide
theorem witness_ReadStageStarts :
    (readStage.hkind = .read10 ∧ readStage.xferLen ≠ 0) ∧
      (readStage.flashOk = true ∧ readStage.xferLen.toNat ≤ readStage.cfg.bufBytes ∧ readStage.buf.wf = true) ∧
      ({ readStage with flashOk := false } : State).flashOk = false := by decide
theorem witness_FixedStageStarts :
    (let s : State := { readStage with hkind := .inquiry }
     s.hkind ≠ .read10 ∧ s.xferLen ≠ 0 ∧ s.xferLen.toNat ≤ s.cfg.bufBytes) ∧
      (let s : State := { readStage with xferLen := 0 }
       s.hkind ≠ .reqsense ∧ s.xferLen = 0) ∧
      (let s : State := { readStage with xferLen := 0, hkind := .reqsense }
       s.hkind = .reqsense ∧ s.xferLen = 0) := by decide
/-- The clauses on an expiry hold at the deadline itself, and the last one a millisecond before it. -/
theorem witness_DataInStageEnds :
    (let s : State := { dinPending with txDone := true }
     s.txDone = true ∧ s.hkind ≠ .reqsense) ∧
      (let s : State := { dinPending with txDone := true, hkind := .reqsense }
       s.txDone = true ∧ s.hkind = .reqsense) ∧
      (let s : State := { dinPending with clock := 1000 }
       s.txDone = false ∧ s.cfg.tDataMs.toNat ≤ (s.clock - s.txStart).toNat ∧ (latched s).senseValid = true ∧
         s.senseValid = false) ∧
      (let s : State := { dinPending with clock := 999 }
       s.txDone = false ∧ (s.clock - s.txStart).toNat < s.cfg.tDataMs.toNat) := by decide
theorem witness_ReceptionArmed : readStage.xferLen ≠ 0 ∧ tc.xferLen = 0 := by decide
theorem witness_ReceptionWritten :
    (received.dataDone = true ∧ received.xferLen.toNat ≤ received.cfg.bufBytes ∧ received.flash.wf = true) ∧
      received.flashOk = true ∧ ({ received with flashOk := false } : State).flashOk = false := by decide
theorem witness_ReceptionWaitsOrTimesOut :
    receiving.dataDone = false ∧ ({ receiving with cfg := Config.standard } : State).cfg.tDoutMs = none ∧
      receiving.cfg.tDoutMs = some 50 ∧
      (let s : State := { receiving with clock := 49 }
       (s.clock - s.rxStart).toNat < (50 : Word).toNat) ∧
      (let s : State := { receiving with clock := 50 }
       (50 : Word).toNat ≤ (s.clock - s.rxStart).toNat ∧ s.senseValid = false ∧ (latched s).senseValid = true) := by decide
theorem witness_StatusStageEnds :
    ({ cswPending with txDone := true } : State).txDone = true ∧
      (let s : State := { cswPending with clock := 1000 }
       s.txDone = false ∧ s.cfg.tCswMs.toNat ≤ (s.clock - s.txStart).toNat) ∧
      (let s : State := { cswPending with clock := 999 }
       s.txDone = false ∧ (s.clock - s.txStart).toNat < s.cfg.tCswMs.toNat) := by decide
theorem witness_ExpiryAcrossClockWrap :
    1000 < 2 ^ 32 ∧ ({ tc with clock := 0x000002E8 } : State).clock = BitVec.ofNat 32 ((0xFFFFFF00 : Word).toNat + 1000) := by
  decide
theorem witness_LatchOperations : (latched tc).senseValid = true ∧ tc.senseValid = false := by decide
theorem witness_LatchWriters :
    (∃ t, tickOnce { taken with curCb := Bytes.fit 16 [0xFF] } = .next t ∧ t.senseValid = true) ∧
      (∃ t, tickOnce { readStage with flashOk := false } = .next t ∧ t.senseKey = 0x3) ∧
      (∃ t, tickOnce { dinPending with clock := 1000 } = .next t ∧ t.senseKey = 0xB) ∧
      (∃ t, tickOnce { dinPending with txDone := true } = .next t) :=
  ⟨⟨_, rfl, rfl⟩, ⟨_, rfl, rfl⟩, ⟨_, rfl, rfl⟩, ⟨_, rfl⟩⟩
theorem witness_SenseReportedOnce :
    ∃ t v x : State, exec (.invalid 0xFF zeros15) small = .next t ∧ SameLatch t (latched small) ∧
      exec (.requestSense zeros15) (latched small) = .next v ∧ SameLatch v (latched { dinPending with hkind := .reqsense }) ∧
      exec .tickDinWait (latched { dinPending with hkind := .reqsense }) = .next x ∧ SameLatch x (latched small) ∧
      exec .tickDinWait (latched { dinPending with hkind := .reqsense, txDone := true }) =
        .next { small with
          phase := .statusPhase, hkind := .reqsense, xferLen := 2, xferred := 2, flashOff := 15,
          calls := dinPending.calls } :=
  ⟨_, _, _, rfl, ⟨rfl, rfl, rfl, rfl⟩, rfl, ⟨rfl, rfl, rfl, rfl⟩, rfl, ⟨rfl, rfl, rfl, rfl⟩, rfl⟩
theorem witness_InvAtBoot :
    Config.standard.wf = true ∧ Memory.wf [(0, 1), (8388607, 2)] = true ∧
      Memory.below Config.standard.flashSize [(0, 1), (8388607, 2)] = true := by decide
theorem witness_StepKeepsInv :
    ∃ t, taken.Inv ∧ taken.admitted ∧ step { taken with pending := [.tick 0 true] } = .next t := ⟨_, taken_inv, rfl, rfl⟩
theorem witness_MachineNeverStops :
    (tc.Inv ∧ tc.admitted) ∧ (received.Inv ∧ received.admitted) ∧ cswPending.Inv ∧ cswPending.admitted :=
  ⟨⟨reset_inv, rfl⟩, ⟨received_inv, rfl⟩, cswPending_inv, rfl⟩
theorem witness_PhaseOrder :
    ∃ t, taken.Inv ∧ taken.admitted ∧ ({ taken with pending := [.tick 0 true] } : State).fetch.1 ≠ some .reset ∧
      step { taken with pending := [.tick 0 true] } = .next t := ⟨_, taken_inv, rfl, by decide, rfl⟩
theorem witness_BuffersStableInFlight :
    (dinPending.Inv ∧ dinPending.admitted ∧ dinPending.InFlight ∧ ∃ t, step { dinPending with pending := [.event .txDone] } = .next t) ∧
      cswPending.Inv ∧ cswPending.InFlight ∧ cswPending.phase = .statusPhase ∧ cswPending.txState = .pending :=
  ⟨⟨dinPending_inv, rfl, dinPending_inFlight, _, rfl⟩, cswPending_inv, cswPending_inFlight, rfl, rfl⟩
theorem witness_OneCommandAtATime :
    ∃ t, cbwPosted.Inv ∧ cbwPosted.admitted ∧ ({ small with newCbw := true, mbox := inquiryCbw, pending := [.tick 0 true] } : State).fetch.1 ≠ some .reset ∧
      step { small with newCbw := true, mbox := inquiryCbw, pending := [.tick 0 true] } = .next t ∧ t.curDtl = 36 :=
  ⟨_, cbwPosted_inv, rfl, by decide, rfl, rfl⟩
theorem witness_GhostFaultsOnlyGrow :
    (∃ t, step { tc with pending := [.event .reserved] } = .next t ∧ t.faults.has .eventReserved = true) ∧
      (∃ t, step { faulted with pending := [.tick 0 true] } = .next t ∧ faulted.faults.has .eventReserved = true) ∧
      tc.Inv ∧ tc.admitted := ⟨⟨_, rfl, rfl⟩, ⟨_, rfl, rfl⟩, reset_inv, rfl⟩
theorem witness_FaultedStepIsFree : faulted.cfg.wf = true ∧ faulted.faults ≠ .empty := by decide
theorem witness_FlashMapIsAnArgument :
    (∀ a, (fun _ : Nat => 7) a < 16) ∧ mappedConfig.flashSize = 16 ∧ mappedConfig.flashAddrMap = .external [⟨16, 8, 4⟩] ∧
      tc.cfg.flashAddrMap = .modSize := ⟨fun _ => by norm_num, rfl, rfl, rfl⟩
theorem witness_MemoriesStayCanonical :
    (received.buf.wf = true ∧ received.buf.below received.cfg.bufBytes = true ∧ received.flash.wf = true ∧
        received.flash.below received.cfg.flashSize = true) ∧
      (∃ t, step { received with pending := [.tick 0 true] } = .next t) ∧
      ∃ t, step { faulted with pending := [.tick 0 true] } = .next t := ⟨by decide, ⟨_, rfl⟩, _, rfl⟩
theorem witness_FlashWrittenOnlyByWrite :
    ∃ t, received.admitted ∧ step { received with pending := [.tick 0 true] } = .next t ∧ received.flash.wf = true ∧
      t.flash ≠ received.flash := ⟨_, rfl, rfl, by decide, by decide⟩
theorem witness_TicksOnlyClearFlags : received.Inv ∧ ∃ t, tickOnce received = .next t ∧ t.dataDone = false :=
  ⟨received_inv, _, rfl, rfl⟩
theorem witness_ConfigurationFixed :
    ∃ t : State, Host.Core.run Sys2Proof.core 1 { tc with pending := [.tick 0 true] } = .next t := ⟨_, rfl⟩
/-- Both forms of the range: wrapping modulo the flash's size, and lying wholly inside the flash. -/
theorem witness_WriteThenReadRoundTrip :
    (received.cfg.wf = true ∧ received.flash.wf = true ∧ received.dataDone = true ∧ received.flashOk = true ∧
        received.xferLen.toNat ≤ received.cfg.bufBytes ∧ received.cfg.flashAddrMap = .modSize ∧
        received.xferLen.toNat ≤ received.cfg.flashSize) ∧
      (let s : State := { received with flashOff := 14 }
       s.flashOff.toNat + s.xferLen.toNat ≤ s.cfg.flashSize) ∧
      ∃ t u : State, exec .tickDoutWait received = .next t ∧ u.cfg = t.cfg ∧ u.flash = t.flash ∧ u.buf.wf = true ∧
        u.hkind = .read10 ∧ u.flashOff = received.flashOff ∧ u.xferLen = received.xferLen ∧ received.xferLen ≠ 0 ∧
        u.flashOk = true :=
  ⟨by decide, by decide, _, { readStage with flash := [(0, 0xBB), (15, 0xAA)] }, rfl, rfl, by decide, rfl, rfl, rfl, rfl,
    by decide, rfl⟩
theorem witness_IdleTicksChangeNothing :
    (tc.phase = .awaitingCbw ∧ tc.newCbw = false) ∧
      (dinPending.phase = .dataInPhase ∧ dinPending.txState = .pending ∧ dinPending.verdict dinPending.cfg.tDataMs = .wait) ∧
      (cswPending.phase = .statusPhase ∧ cswPending.txState = .pending ∧ cswPending.verdict cswPending.cfg.tCswMs = .wait) ∧
      (receiving.phase = .dataOutPhase ∧ receiving.rxArmed = true ∧ receiving.dataDone = false ∧
        ∀ limit, receiving.cfg.tDoutMs = some limit → receiving.expired receiving.rxStart limit = false) := by
  refine ⟨by decide, by decide, by decide, by decide, by decide, by decide, fun limit h => ?_⟩
  have hl : (50 : Word) = limit := Option.some.inj h
  rw [← hl]
  decide
theorem witness_SettleEnds : (cswPending.Inv ∧ cswPending.admitted) ∧ taken.Inv ∧ taken.admitted :=
  ⟨⟨cswPending_inv, rfl⟩, taken_inv, rfl⟩
/-- Five rounds from the command tick, and the boundary of the clock's conditions: two ticks of one round make up the timeout,
and a submission in flight is as old as the first tick allows. -/
theorem witness_CommandEndsUnderSilence :
    (let rounds : List (List (BitVec 31 × Bool)) := List.replicate 5 [(600, true), (400, false)]
     let s : State := { taken with pending := rounds.flatten.map (fun p => Move.tick p.1 p.2) ++ [.powerOn] }
     s.Inv ∧ s.admitted ∧ s.phase ≠ .awaitingCbw ∧ s.cfg.tDoutMs ≠ none ∧ rounds.length = 5 ∧
       s.pending = rounds.flatten.map (fun p => Move.tick p.1 p.2) ++ [.powerOn] ∧
       (∀ r ∈ rounds, r ≠ [] ∧
         ∀ T : Word, T = s.cfg.tDataMs ∨ T = s.cfg.tCswMs ∨ s.cfg.tDoutMs = some T →
           T.toNat ≤ (r.map (·.1.toNat)).sum ∧ ∀ p ∈ r, p.1.toNat + T.toNat ≤ 2 ^ 32) ∧
       s.txState = .idle ∧ s.rxArmed = false) ∧
      (let s : State := { dinPending with clock := 0x80000000 }
       s.Inv ∧ s.txState = .pending ∧ (s.clock - s.txStart).toNat + (0x7FFFFFFF : BitVec 31).toNat < 2 ^ 32) ∧
      (let s : State := { receiving with clock := 49 }
       s.rxArmed = true ∧ s.cfg.tDoutMs ≠ none ∧ (s.clock - s.rxStart).toNat + (1000 : BitVec 31).toNat < 2 ^ 32) := by
  refine ⟨⟨by constructor <;> decide, rfl, by decide, by decide, rfl, rfl, fun r hr => ?_, rfl, rfl⟩,
    ⟨by constructor <;> decide, rfl, ?_⟩, by decide⟩
  · obtain rfl : r = [(600, true), (400, false)] := List.eq_of_mem_replicate hr
    refine ⟨by decide, fun T hT => ?_⟩
    have hT : T = 1000 ∨ T = 1000 ∨ (50 : Word) = T :=
      hT.imp id (Or.imp id Option.some.inj)
    rcases hT with rfl | rfl | rfl <;> simp
  · show (0x80000000#32 - 0#32).toNat + (0x7FFFFFFF#31).toNat < 2 ^ 32
    norm_num

end Sys2Proof.Tests
end

section
/-! The model's scope: which configurations are run, that no run changes the configuration, and that the flash store's address
map is an argument. -/

namespace Sys2Proof.Machine

/-! The checks of a configuration as propositions (R6, R7, R58) -/

theorem blockSizeOk_iff (c : Config) :
    c.blockSizeOk = true ↔ (∃ k, c.blockSize = 2 ^ k) ∧ c.blockSize ≤ 2 ^ 32 := by
  simp only [Config.blockSizeOk, List.any_eq_true, List.mem_range, beq_iff_eq]
  constructor
  · rintro ⟨k, hk, hb⟩
    exact ⟨⟨k, hb⟩, hb ▸ Nat.pow_le_pow_right (by decide) (Nat.le_of_lt_succ hk)⟩
  · rintro ⟨⟨k, hb⟩, hle⟩
    have hk : k ≤ 32 := (Nat.pow_le_pow_iff_right (by decide)).1 (hb ▸ hle)
    exact ⟨k, Nat.lt_succ_of_le hk, hb⟩

theorem flashSizeOk_iff (c : Config) :
    c.flashSizeOk = true ↔ 1 ≤ c.flashSize / c.blockSize ∧ c.flashSize / c.blockSize ≤ 0xFFFFFFFF := by
  simp only [Config.flashSizeOk, Bool.and_eq_true, decide_eq_true_eq]

theorem modeSenseOk_iff (c : Config) :
    c.modeSenseOk = true ↔
      1 ≤ c.modeSenseData.length ∧ c.modeSenseData.length ≤ 255 ∧ (byteAt c.modeSenseData 2).getLsbD 7 = true := by
  simp only [Config.modeSenseOk, byteAt, Bool.and_eq_true, decide_eq_true_eq, and_assoc]

theorem sensesOk_iff (c : Config) :
    c.sensesOk = true ↔
      c.senseInvalidOpcode.key ≠ 0 ∧ c.senseMediumRead.key ≠ 0 ∧ c.senseMediumWrite.key ≠ 0 ∧
        c.senseDataTimeout.key ≠ 0 := by
  simp only [Config.sensesOk, Bool.and_eq_true, bne_iff_ne, and_assoc]

/-- Disjointness, read from the other list. -/
theorem noopsOk_iff (c : Config) :
    c.noopsOk = true ↔ ∀ op ∈ ([0x00, 0x03, 0x12, 0x1A, 0x25, 0x28, 0x2A] : List Byte), op ∉ c.noopOpcodes := by
  simp only [Config.noopsOk, List.all_eq_true, Bool.not_eq_true', List.contains_eq_mem, decide_eq_false_iff_not]
  exact ⟨fun h op hr hn => h op hn hr, fun h op hn hr => h op hr hn⟩

/-- The executable check accepts exactly the admissible configurations. -/
theorem wf_iff_admissible (c : Config) : c.wf = true ↔ Admissible c := by
  simp only [Config.wf, Bool.and_eq_true, decide_eq_true_eq, blockSizeOk_iff, flashSizeOk_iff, modeSenseOk_iff,
    sensesOk_iff, noopsOk_iff, and_assoc]
  exact Iff.rfl

/-! No operation is refused -/

theorem withinBuf_ne_refused (s : State) (n : Nat) (t : State) (r : Refusal) : s.withinBuf n t ≠ .refused r := by
  unfold State.withinBuf; split <;> nofun

theorem execTickAwait_ne_refused (s : State) (r : Refusal) : execTickAwait s ≠ .refused r := by
  unfold execTickAwait
  split
  · split <;> nofun
  · nofun

/-- A fixed payload is guarded by the buffer's bound; every other handler goes on. -/
theorem execTickCommand_ne_refused (s : State) (r : Refusal) : execTickCommand s ≠ .refused r := by
  unfold execTickCommand
  cases cdbRow (byteAt s.curCb.toList 0) with
  | requestSense | inquiry | modeSense6 | readCapacity10 => exact withinBuf_ne_refused _ _ _ _
  | testUnitReady | startStopUnit | preventAllowMediumRemoval | read10 | write10 | invalid => nofun

theorem execTickDinStart_ne_refused (s : State) (r : Refusal) : execTickDinStart s ≠ .refused r := by
  unfold execTickDinStart
  split
  · nofun
  · split
    · unfold State.readThenSubmit
      dsimp only
      split
      · exact withinBuf_ne_refused _ _ _ _
      · nofun
    · exact withinBuf_ne_refused _ _ _ _

theorem execTickDinWait_ne_refused (s : State) (r : Refusal) : execTickDinWait s ≠ .refused r := by
  unfold execTickDinWait; split <;> nofun

theorem execTickDoutArm_ne_refused (s : State) (r : Refusal) : execTickDoutArm s ≠ .refused r := by
  unfold execTickDoutArm; split <;> nofun

theorem execTickDoutWait_ne_refused (s : State) (r : Refusal) : execTickDoutWait s ≠ .refused r := by
  unfold execTickDoutWait
  split
  · exact withinBuf_ne_refused _ _ _ _
  · split <;> nofun

theorem execTickStsWait_ne_refused (s : State) (r : Refusal) : execTickStsWait s ≠ .refused r := by
  unfold execTickStsWait; split <;> nofun

theorem tickOnce_ne_refused (s : State) (r : Refusal) : tickOnce s ≠ .refused r := by
  rw [tickOnce_eq]
  cases s.phase with
  | awaitingCbw => exact execTickAwait_ne_refused s r
  | commandPhase => exact execTickCommand_ne_refused s r
  | dataInPhase =>
    dsimp only
    split
    · exact execTickDinStart_ne_refused s r
    · exact execTickDinWait_ne_refused s r
  | dataOutPhase =>
    dsimp only
    split
    · exact execTickDoutArm_ne_refused s r
    · exact execTickDoutWait_ne_refused s r
  | statusPhase =>
    dsimp only
    split
    · nofun
    · exact execTickStsWait_ne_refused s r
  | noDataPhase | reserved6 | reserved7 => nofun

theorem exec_event_ne_refused (e : UsbEvent) (s : State) (r : Refusal) : exec (decodeEvent e) s ≠ .refused r := by
  cases e with
  | reserved => nofun
  | cbw raw =>
    show execEvCbw raw s ≠ _
    unfold execEvCbw; split <;> nofun
  | data bytes =>
    show execEvData bytes s ≠ _
    unfold execEvData
    split
    · split <;> nofun
    · exact withinBuf_ne_refused _ _ _ _
  | txDone =>
    show execEvTxdone s ≠ _
    unfold execEvTxdone; split <;> nofun

/-- Under an admitted configuration a step goes on or faults, before a ghost fault and after it. -/
theorem step_ne_refused_of_wf (s : State) (hc : s.cfg.wf = true) (r : Refusal) : step s ≠ .refused r := by
  by_cases ha : s.admitted
  · rw [step_of_wf s hc]
    obtain ⟨_, _, _, _, u, -, hf | hf | ⟨e, hf⟩ | hf⟩ := s.fetch_cases ha <;> rw [hf]
    · nofun
    · nofun
    · exact exec_event_ne_refused e u r
    · exact tickOnce_ne_refused u r
  · obtain ⟨_, _, hs⟩ := step_faulted s hc ha
    rw [hs]
    nofun

/-- Outside the constraints nothing runs (R7). -/
theorem step_of_not_wf (s : State) (hc : ¬s.cfg.wf = true) : step s = .refused .configuration := if_neg hc

/-- Settles O8: the guard of `step` is the constraints, and behind it no operation is refused. -/
theorem configurationRefused : Obligations.ConfigurationRefused := by
  unfold Obligations.ConfigurationRefused
  intro s
  rw [← wf_iff_admissible]
  exact ⟨fun h hc => step_ne_refused_of_wf s hc _ h, step_of_not_wf s⟩

/-! The configuration is fixed -/

theorem TickStep.cfg_eq {s t : State} (h : TickStep s t) : t.cfg = s.cfg := by
  cases h <;> rfl

theorem EventStep.cfg_eq {s t : State} (h : EventStep s t) : t.cfg = s.cfg := by
  cases h <;> rfl

theorem wf_of_step_next (s t : State) (h : step s = .next t) : s.cfg.wf = true := by
  by_contra hc
  rw [step_of_not_wf s hc] at h
  cases h

/-- No step writes a parameter, a free one after a ghost fault included (R36; entry 10). -/
theorem step_cfg (s t : State) (h : step s = .next t) : t.cfg = s.cfg := by
  by_cases ha : s.admitted
  · obtain ⟨-, _, _, _, _, u, rfl, ⟨-, rfl⟩ | ⟨-, hr⟩ | ⟨e, -, he⟩ | ⟨-, ht⟩⟩ := step_cases s t ha h
    · rfl
    · cases hr; rfl
    · exact (event_step _ t e he).cfg_eq
    · exact (tickOnce_step _ t ht).cfg_eq
  · obtain ⟨_, _, hs⟩ := step_faulted s (wf_of_step_next s t h) ha
    cases hs.symm.trans h
    rfl

/-- Settles O49, by induction on the number of steps. -/
theorem configurationFixed : Obligations.ConfigurationFixed := by
  unfold Obligations.ConfigurationFixed
  intro k
  induction k with
  | zero => intro s t h; cases h; rfl
  | succ k ih =>
    intro s t h
    obtain ⟨u, hu, hrun⟩ := run_succ_next k h
    exact (ih u t hrun).trans (step_cfg s u hu)

/-! The flash store's address map (R57) -/

theorem flashPlace_modSize (c : Config) (a : Nat) (h : c.flashAddrMap = .modSize) :
    flashPlace c a = a % c.flashSize := by
  simp only [flashPlace, h]

/-- A map on the offsets below a bound as an address map's stretches, one for each offset. -/
def pointRuns (map : Nat → Nat) : Nat → List FlashRun
  | 0 => []
  | n + 1 => ⟨n, 1, map n⟩ :: pointRuns map n

/-- The stretches put each offset below the bound where the map does. -/
theorem placeIn_pointRuns (map : Nat → Nat) (bound a : Nat) (h : a < bound) :
    placeIn (pointRuns map bound) a = some (map a) := by
  induction bound with
  | zero => exact absurd h (Nat.not_lt_zero a)
  | succ n ih =>
    rw [pointRuns, placeIn_cons]
    dsimp only
    by_cases ha : a = n
    · subst ha; simp
    · rw [if_neg (by omega), ih (by omega)]

/-- Settles O57: the argument is the map written out offset by offset. -/
theorem flashMapIsAnArgument : Obligations.FlashMapIsAnArgument := by
  unfold Obligations.FlashMapIsAnArgument
  refine ⟨flashPlace_modSize, fun size bound map hmap => ⟨pointRuns map bound, fun c hsize hm => ?_⟩⟩
  subst hsize
  exact ⟨flashPlace_of_lt c, fun a ha hb =>
    flashPlace_of_placeIn c _ a (map a) hm ha (placeIn_pointRuns map bound a hb) (hmap a)⟩

end Sys2Proof.Machine
end

section
/-! The state: the machine starts in the invariant and every step keeps it; what a step does to the phase, to the command in
progress, to the flags and to a submission in flight. -/

namespace Sys2Proof.Machine

/-! What the invariant says of the fields that a phase does not use -/

theorem TxState.eq_idle_of_ne_pending {x : TxState} (h : x ≠ .pending) : x = .idle := by
  cases x with
  | idle => rfl
  | pending => exact absurd rfl h

/-- A submission is in flight in a data-in or status stage only (R31). -/
theorem State.Inv.txState_idle {s : State} (hi : s.Inv) (hd : s.phase ≠ .dataInPhase) (hs : s.phase ≠ .statusPhase) :
    s.txState = .idle := by
  refine TxState.eq_idle_of_ne_pending fun h => ?_
  rcases hi.tx_stage h with ⟨hp, -⟩ | ⟨hp, -⟩
  · exact hd hp
  · exact hs hp

/-- A reception is armed in a data-out stage only (R32). -/
theorem State.Inv.rxArmed_false {s : State} (hi : s.Inv) (hp : s.phase ≠ .dataOutPhase) : s.rxArmed = false := by
  by_contra h
  exact hp (hi.rx_stage (by simpa using h)).1

/-- The mailbox is empty from the moment a CBW is taken until the CSW is in flight (R25). -/
theorem State.Inv.newCbw_false {s : State} (hi : s.Inv) (ha : s.phase ≠ .awaitingCbw) (hs : s.phase ≠ .statusPhase) :
    s.newCbw = false := by
  by_contra h
  rcases hi.mbox_phase (by simpa using h) with hp | ⟨hp, -⟩
  · exact ha hp
  · exact hs hp

theorem State.Inv.flashSize_pos {s : State} (hi : s.Inv) : 0 < s.cfg.flashSize := by
  obtain ⟨-, -, -, -, hf, -⟩ := wf_sizes s.cfg hi.cfg_wf
  exact hf

/-! The configured sense tuples (R7) -/

theorem sensesOk_of_wf {c : Config} (h : c.wf = true) : c.sensesOk = true := by
  simp only [Config.wf, Bool.and_eq_true] at h
  exact h.1.2

/-- Whatever an error leaves in the latch has a key. -/
theorem State.Inv.ifEmpty_result_key {s : State} (hi : s.Inv) {v : Sense} (hv : v.key ≠ 0) :
    ((LatchWrite.ifEmpty v).result s).key ≠ 0 := by
  simp only [LatchWrite.result]
  split
  · rename_i h; exact hi.latch_key h
  · exact hv

/-! The mailbox's signature (R101) -/

theorem signed_of_decodeCbw {raw : Bytes 31} {c : Cbw} (h : decodeCbw raw = some c) :
    le32 raw.toList 0 = cbwSignature := by
  by_contra hs
  simp [decodeCbw, hs] at h

/-! The stage that a handler enters -/

/-- `PhaseOf(Class(hkind))` written out (R27, R134): WRITE(10) is the only handler that receives data. -/
theorem phaseOf_dataClass_cases {k : HandlerKind} {p : Phase} (h : k.dataClass.phaseOf = some p) :
    (p = .noDataPhase ∧ k.dataClass = .noData) ∨ (p = .dataInPhase ∧ k.dataClass = .dataIn) ∨
      (p = .dataOutPhase ∧ k = .write10) := by
  cases k with
  | none => cases h
  | tur | noop | invalid => cases h; exact .inl ⟨rfl, rfl⟩
  | reqsense | inquiry | modesense6 | readcap10 | read10 => cases h; exact .inr (.inl ⟨rfl, rfl⟩)
  | write10 => cases h; exact .inr (.inr ⟨rfl, rfl⟩)

/-! One rule per state operation: what it needs to keep the invariant. Each rule names the clauses that speak of the fields it
writes; every other clause is the old one. -/

section Rules

variable {s : State} (hi : s.Inv)
include hi

/-- A latch write of a sense with a key (R181, R182). -/
theorem State.Inv.latched (v : Sense) (hv : v.key ≠ 0) :
    ({ s with senseValid := true, senseKey := v.key, senseAsc := v.asc, senseAscq := v.ascq } : State).Inv :=
  { hi with latch_empty := nofun, latch_key := fun _ => hv }

theorem State.Inv.latchCleared : s.latchClear.Inv :=
  { hi with latch_empty := fun _ => ⟨rfl, rfl, rfl⟩, latch_key := nofun }

/-- An error of the command leaves status `Failed`, which a command cannot have before its data stage is over, and a sense with
a key (R28, R212). -/
theorem State.Inv.failed (hp : s.phase = .statusPhase) (v : Sense) (hv : v.key ≠ 0) :
    ({ s with
        cswStatus := 0x01, senseValid := true, senseKey := v.key, senseAsc := v.asc, senseAscq := v.ascq } : State).Inv :=
  { hi.latched v hv with
    status_legal := .inr rfl
    status_early := fun h => by simp [hp] at h }

/-- The status stage is entered with nothing in flight and nothing armed; the mailbox is empty (R23, R25). -/
theorem State.Inv.enterStatus {p : Phase} (hp : s.phase = p) (hf : p.follows .statusPhase = true) (ht : s.txState = .idle)
    (hr : s.rxArmed = false) : ({ s with phase := .statusPhase } : State).Inv :=
  have hn := hi.newCbw_false (fun h => by rw [← hp, h] at hf; cases hf) (fun h => by rw [← hp, h] at hf; cases hf)
  { hi with
    phase_legal := ⟨nofun, nofun⟩
    status_early := nofun
    mbox_phase := by simp [hn]
    tx_stage := by simp [ht]
    rx_stage := by simp [hr]
    kind_in := nofun
    kind_out := nofun
    kind_none := nofun }

/-- The CSW is out, or given up: the block awaits the next CBW, which may stand in the mailbox already (R152, R213). -/
theorem State.Inv.endCommand (hp : s.phase = .statusPhase) (d : Bool) (hd : d = false) :
    ({ s with txDone := d, txState := .idle, phase := .awaitingCbw } : State).Inv :=
  have hr := hi.rxArmed_false (by simp [hp])
  { hi with
    phase_legal := ⟨nofun, nofun⟩
    status_early := nofun
    mbox_phase := fun _ => .inl rfl
    tx_stage := nofun
    tx_done := by simp [hd]
    rx_stage := by simp [hr]
    kind_in := nofun
    kind_out := nofun
    kind_none := nofun }

/-- A CBW is taken (R132). -/
theorem State.Inv.takeCbw (hp : s.phase = .awaitingCbw) (c : Cbw) : (s.takeCbw c).Inv :=
  have ht := hi.txState_idle (by simp [hp]) (by simp [hp])
  have hr := hi.rxArmed_false (by simp [hp])
  { hi with
    phase_legal := ⟨nofun, nofun⟩
    status_legal := .inl rfl
    status_early := fun _ => rfl
    mbox_signed := nofun
    mbox_phase := nofun
    tx_stage := by simp [State.takeCbw, ht]
    rx_stage := by simp [State.takeCbw, hr]
    rx_count := Nat.zero_le _
    rx_done := by simp [State.takeCbw, hr]
    xfer_fits := Nat.zero_le _
    off_aligned := dvd_zero _
    kind_in := nofun
    kind_out := nofun
    kind_none := nofun }

/-- A handler is chosen and the stage of its class entered (R110, R134). -/
theorem State.Inv.enterStage (hp : s.phase = .commandPhase) (k : HandlerKind) (p : Phase) (status : Byte) (len off : Word)
    (hk : k.dataClass.phaseOf = some p) (hs : status = 0x00 ∨ (status = 0x01 ∧ p = .noDataPhase))
    (hl : len.toNat ≤ s.cfg.bufBytes) (hz : p = .noDataPhase → len = 0) (ho : s.cfg.blockSize ∣ off.toNat) :
    ({ s with hkind := k, cswStatus := status, xferLen := len, flashOff := off, phase := p } : State).Inv :=
  have hn := hi.newCbw_false (by simp [hp]) (by simp [hp])
  have ht := hi.txState_idle (by simp [hp]) (by simp [hp])
  have hr := hi.rxArmed_false (by simp [hp])
  have hstage := phaseOf_dataClass_cases hk
  { hi with
    phase_legal := by rcases hstage with ⟨rfl, -⟩ | ⟨rfl, -⟩ | ⟨rfl, -⟩ <;> exact ⟨nofun, nofun⟩
    status_legal := hs.imp_right And.left
    status_early := by
      rcases hs with hs | ⟨-, rfl⟩
      · exact fun _ => hs
      · exact nofun
    mbox_phase := by simp [hn]
    tx_stage := by simp [ht]
    rx_stage := by simp [hr]
    xfer_fits := hl
    off_aligned := ho
    kind_in := by rintro rfl; simpa using hstage
    kind_out := by rintro rfl; simpa using hstage
    kind_none := by rintro rfl; exact ⟨by simpa using hstage, hz rfl⟩ }

/-! The submission -/

/-- No clause speaks of the calls made. -/
theorem State.Inv.call (c : Call) : (s.call c).Inv :=
  { hi with }

/-- `Submit`, in the stage that its kind belongs to (R136, R138, R151). -/
theorem State.Inv.submit (kind : TxKind) (bytes : List Byte) (n timeout : Word)
    (h : (s.phase = .dataInPhase ∧ kind = .data) ∨ (s.phase = .statusPhase ∧ kind = .csw)) :
    (s.submit kind bytes n timeout).Inv :=
  { hi with
    mbox_phase := fun hn => (hi.mbox_phase hn).imp_right fun hp => ⟨hp.1, rfl⟩
    tx_stage := fun _ => h
    tx_done := nofun }

/-- A data submission is over, by completion or by abort (R140, R148). -/
theorem State.Inv.endData (hp : s.phase = .dataInPhase) (d : Bool) (hd : d = false) :
    ({ s with txDone := d, txState := .idle } : State).Inv :=
  have hn := hi.newCbw_false (by simp [hp]) (by simp [hp])
  { hi with
    mbox_phase := by simp [hn]
    tx_stage := nofun
    tx_done := by simp [hd] }

/-! The reception -/

/-- A reception of the whole transfer is armed (R141). -/
theorem State.Inv.arm (hp : s.phase = .dataOutPhase) (hx : s.xferLen ≠ 0) :
    ({ s with rxLen := s.xferLen, rxCount := 0, dataDone := false, rxArmed := true } : State).Inv :=
  { hi with
    rx_stage := fun _ => ⟨hp, rfl, hx⟩
    rx_count := Nat.zero_le _
    rx_done := fun _ => ⟨nofun, fun h => absurd h.symm hx⟩
    rx_idle := fun _ => rfl
    rx_fits := hi.xfer_fits }

/-- The armed reception has more of its bytes (R163). -/
theorem State.Inv.advance (ha : s.rxArmed = true) (count : Word) (hc : count.toNat ≤ s.rxLen.toNat) :
    ({ s with rxCount := count, dataDone := decide (count = s.rxLen) } : State).Inv :=
  { hi with
    rx_count := hc
    rx_done := fun _ => decide_eq_true_iff
    rx_idle := fun _ => ha }

/-- The reception is over, by its last byte or by timeout (R142, R143). -/
theorem State.Inv.disarm (d : Bool) (hd : d = false) : ({ s with rxArmed := false, dataDone := d } : State).Inv :=
  { hi with
    rx_stage := nofun
    rx_done := nofun
    rx_idle := by simp [hd] }

/-! The two memories -/

theorem State.Inv.storeBuf (start : Nat) (bytes : List Byte) (h : start + bytes.length ≤ s.cfg.bufBytes) :
    (s.storeBuf start bytes).Inv :=
  { hi with
    buf_wf := Memory.writeVia_wf _ _ _ _ hi.buf_wf
    buf_below := Memory.writeVia_below _ _ _ _ _ (fun _ hk => (Nat.add_lt_add_left hk start).trans_le h) hi.buf_below }

theorem State.Inv.flashStore (off : Word) (bytes : List Byte) : (s.flashStore off bytes).Inv :=
  { hi with
    flash_wf := Memory.writeVia_wf _ _ _ _ hi.flash_wf
    flash_below := Memory.writeVia_below _ _ _ _ _ (fun _ _ => flashPlace_lt _ _ hi.flashSize_pos) hi.flash_below }

/-! The interrupt context -/

/-- A signed CBW is posted where it overlaps no command (R161, R162). -/
theorem State.Inv.postCbw (raw : Bytes 31) (c : Cbw) (hc : decodeCbw raw = some c) (ho : s.overlap = false) :
    (s.postCbw raw).Inv :=
  { hi with
    mbox_signed := fun _ => signed_of_decodeCbw hc
    mbox_phase := fun _ => by
      obtain ⟨-, h | h | h | h⟩ := s.overlap_eq_false_iff.1 ho
      · exact .inl h
      · exact absurd h hi.phase_legal.1
      · exact absurd h hi.phase_legal.2
      · exact .inr h }

theorem State.Inv.setTxDone (ht : s.txState = .pending) : s.setTxDone.Inv :=
  { hi with tx_done := fun _ => ht }

end Rules

/-! Every step keeps the invariant -/

/-- Each tick is a composition of the operations above; the fields that it writes besides are none of the invariant's, so their
clauses are the old ones (`with`). -/
theorem TickStep.inv {s t : State} (h : TickStep s t) (hi : s.Inv) : t.Inv := by
  obtain ⟨hinvalid, hread, hwrite, htimeout⟩ := (sensesOk_iff _).1 (sensesOk_of_wf hi.cfg_wf)
  cases h with
  | awaitIdle | dinWait | doutWait | stsWait => exact hi
  | awaitTake hp hn c => exact hi.takeCbw hp c
  | commandFixed hp k payload calls hk hr hl =>
    have hlen : (s.fixedLen payload.length).toNat ≤ s.cfg.bufBytes := (fixedLen_le s _).trans hl
    have hclass : k.dataClass.phaseOf = some .dataInPhase := by rw [hk]; rfl
    have hstored := hi.storeBuf 0 payload (by omega)
    exact { hstored.enterStage hp k _ 0x00 (s.fixedLen payload.length) 0 hclass (.inl rfl) hlen nofun (dvd_zero _) with }
  | commandNoData hp k status hk hs =>
    have hclass : k.dataClass.phaseOf = some .noDataPhase := by rcases hk with rfl | rfl <;> rfl
    have hearly := hs.imp_right fun h => And.intro h (Eq.refl Phase.noDataPhase)
    exact hi.enterStage hp k _ status 0 0 hclass hearly (Nat.zero_le _) (fun _ => rfl) (dvd_zero _)
  | commandInvalid hp =>
    have hstage := hi.enterStage hp .invalid _ 0x01 0 0 rfl (.inr ⟨rfl, rfl⟩) (Nat.zero_le _) (fun _ => rfl) (dvd_zero _)
    exact hstage.latched s.cfg.senseInvalidOpcode hinvalid
  | commandRead hp ho args =>
    have hlen := lengthOf_le s.cfg hi.cfg_wf args.blocks
    exact hi.enterStage hp .read10 _ 0x00 _ _ rfl (.inl rfl) hlen nofun (offsetOf_aligned _ hi.cfg_wf _)
  | commandWrite hp ho args =>
    have hlen := lengthOf_le s.cfg hi.cfg_wf args.blocks
    exact hi.enterStage hp .write10 _ 0x00 _ _ rfl (.inl rfl) hlen nofun (offsetOf_aligned _ hi.cfg_wf _)
  | noData hp =>
    have ht := hi.txState_idle (by simp [hp]) (by simp [hp])
    exact { hi.enterStatus hp rfl ht (hi.rxArmed_false (by simp [hp])) with }
  | dinEmpty hp ht => exact { hi.enterStatus hp rfl ht (hi.rxArmed_false (by simp [hp])) with }
  | dinEmptySense hp ht => exact { (hi.enterStatus hp rfl ht (hi.rxArmed_false (by simp [hp]))).latchCleared with }
  | dinReadOk hp ht hx hk ho hl m hm =>
    subst hm
    exact ((hi.call _).storeBuf 0 _ (by simpa using hl)).submit .data _ _ _ (.inl ⟨hp, rfl⟩)
  | dinReadFail hp ht =>
    have hended := hi.enterStatus hp rfl ht (hi.rxArmed_false (by simp [hp]))
    exact { hended.failed rfl s.cfg.senseMediumRead hread with }
  | dinSubmit hp => exact hi.submit .data _ _ _ (.inl ⟨hp, rfl⟩)
  | dinDone hp => exact { (hi.endData hp false rfl).enterStatus hp rfl rfl (hi.rxArmed_false (by simp [hp])) with }
  | dinDoneSense hp =>
    have hended := (hi.endData hp false rfl).enterStatus hp rfl rfl (hi.rxArmed_false (by simp [hp]))
    exact { hended.latchCleared with }
  | dinTimeout hp ht hv v hs =>
    subst hs
    obtain ⟨hd, -⟩ := (s.verdict_expired_iff _).1 hv
    have hended := (hi.endData hp s.txDone hd).enterStatus hp rfl rfl (hi.rxArmed_false (by simp [hp]))
    exact { hended.failed rfl _ (hi.ifEmpty_result_key htimeout) with }
  | doutEmpty hp hr =>
    have ht := hi.txState_idle (by simp [hp]) (by simp [hp])
    exact { hi.enterStatus hp rfl ht hr with }
  | doutArm hp hr hx => exact { hi.arm hp hx with }
  | doutOk hp =>
    have ht := hi.txState_idle (by simp [hp]) (by simp [hp])
    have hwritten := (hi.disarm false rfl).flashStore s.flashOff (s.loadBuf s.xferLen.toNat)
    exact { hwritten.enterStatus hp rfl ht rfl with }
  | doutFail hp =>
    have ht := hi.txState_idle (by simp [hp]) (by simp [hp])
    have hspoilt := (hi.disarm false rfl).flashStore s.flashOff (s.freeBytes s.xferLen.toNat)
    exact { (hspoilt.enterStatus hp rfl ht rfl).failed rfl s.cfg.senseMediumWrite hwrite with }
  | doutTimeout hp hr hd he v hs =>
    subst hs
    have ht := hi.txState_idle (by simp [hp]) (by simp [hp])
    have hended := (hi.disarm s.dataDone hd).enterStatus hp rfl ht rfl
    exact { hended.failed rfl _ (hi.ifEmpty_result_key htimeout) with }
  | stsStart hp ht =>
    have hcsw : ({ s with cswBuf := s.cswOf } : State).Inv := { hi with }
    exact hcsw.submit .csw _ _ _ (.inr ⟨hp, rfl⟩)
  | stsDone hp => exact hi.endCommand hp false rfl
  | stsTimeout hp ht hv =>
    obtain ⟨hd, -⟩ := (s.verdict_expired_iff _).1 hv
    exact { hi.endCommand hp s.txDone hd with }
  | bad hp =>
    rcases hp with hp | hp
    · exact absurd hp hi.phase_legal.1
    · exact absurd hp hi.phase_legal.2

theorem EventStep.inv {s t : State} (h : EventStep s t) (hi : s.Inv) : t.Inv := by
  cases h with
  | unchanged => exact hi
  | recorded => exact { hi with }
  | posted raw c hc ho => exact hi.postCbw raw c hc ho
  | received bytes n faults ha hd hn hl hb hf =>
    have hle : s.rxCount.toNat + n ≤ s.rxLen.toNat := by have := hi.rx_count; omega
    have hbuf : s.rxCount.toNat + (bytes.take n).length ≤ s.cfg.bufBytes := by
      rw [List.length_take_of_le hn]; exact hle.trans hi.rx_fits
    have hcount : (BitVec.ofNat 32 (s.rxCount.toNat + n)).toNat ≤ s.rxLen.toNat := by
      rw [BitVec.toNat_ofNat]; exact (Nat.mod_le _ _).trans hle
    exact { (hi.storeBuf _ (bytes.take n) hbuf).advance ha _ hcount with }
  | completed ht hd => exact hi.setTxDone ht

/-- The start of a run under an admitted configuration (R21, R230). -/
theorem boot_inv (cfg : Config) (flash : Memory) (clock : Word) (hc : cfg.wf = true) (hw : flash.wf = true)
    (hb : flash.below cfg.flashSize = true) : (State.boot cfg flash clock).Inv where
  cfg_wf := hc
  buf_wf := Memory.wf_nil
  buf_below := Memory.below_nil _
  flash_wf := hw
  flash_below := hb
  phase_legal := ⟨nofun, nofun⟩
  status_legal := .inl rfl
  status_early := nofun
  mbox_signed := nofun
  mbox_phase := nofun
  tx_stage := nofun
  tx_done := nofun
  rx_stage := nofun
  rx_count := Nat.le_refl _
  rx_done := nofun
  rx_idle := nofun
  xfer_fits := Nat.zero_le _
  rx_fits := Nat.zero_le _
  off_aligned := dvd_zero _
  latch_empty := fun _ => ⟨rfl, rfl, rfl⟩
  latch_key := nofun
  kind_in := nofun
  kind_out := nofun
  kind_none := nofun

/-- The free contents of `buf` after a reset are canonical and lie in the buffer. -/
theorem State.freeBuf_memory (s : State) : s.freeBuf.wf = true ∧ s.freeBuf.below s.cfg.bufBytes = true :=
  ⟨Memory.writeVia_wf _ _ _ _ Memory.wf_nil,
    Memory.writeVia_below _ _ _ _ _
      (fun i hk => by
        have := List.length_take_le s.cfg.bufBytes (Config.freeBuffer s.draws)
        simp only [id]
        omega)
      (Memory.below_nil _)⟩

/-- A reset within a run leaves the start of a run, but for the free contents of `buf` and of the empty mailbox and for fields
that no clause speaks of (R230). -/
theorem execReset_inv {s t : State} (h : exec .reset s = .next t) (hi : s.Inv) : t.Inv := by
  cases h
  obtain ⟨hw, hb⟩ := s.freeBuf_memory
  have hboot := boot_inv s.cfg s.flash s.clock hi.cfg_wf hi.flash_wf hi.flash_below
  exact { hboot with buf_wf := hw, buf_below := hb, mbox_signed := nofun }

/-- What the environment writes before an operation runs is none of the invariant's. -/
theorem State.Inv.environment {s : State} (hi : s.Inv) (rest : List Move) (now : Word) (ok : Bool) (d : Nat) :
    ({ s with pending := rest, clock := now, flashOk := ok, draws := d } : State).Inv :=
  { hi with }

/-- Settles O42: `State.reset` is the start of a run under the standard configuration. -/
theorem invAtBoot : Obligations.InvAtBoot := by
  unfold Obligations.InvAtBoot
  exact ⟨fun cfg flash clock hc hw hb => ⟨boot_inv cfg flash clock hc hw hb, rfl⟩,
    boot_inv _ _ _ (by decide) Memory.wf_nil (Memory.below_nil _), rfl⟩

/-- Settles O43, by the cases of a step: nothing, a reset, an event or a tick. -/
theorem stepKeepsInv : Obligations.StepKeepsInv := by
  unfold Obligations.StepKeepsInv
  intro s t hi ha h
  obtain ⟨-, rest, now, ok, d, u, rfl, ⟨-, rfl⟩ | ⟨-, hr⟩ | ⟨e, -, he⟩ | ⟨-, ht⟩⟩ := step_cases s t ha h
  · exact hi.environment rest now ok d
  · exact execReset_inv hr (hi.environment rest now ok d)
  · exact (event_step _ t e he).inv (hi.environment rest now ok d)
  · exact (tickOnce_step _ t ht).inv (hi.environment rest now ok d)

/-! The changes of phase -/

/-- A tick keeps the phase or changes it as the phase order allows (R23). -/
theorem TickStep.phase_eq_or_follows {s t : State} (h : TickStep s t) :
    t.phase = s.phase ∨ s.phase.follows t.phase = true := by
  cases h with
  | awaitIdle | dinReadOk | dinSubmit | dinWait | doutArm | doutWait | stsStart | stsWait | bad => exact .inl rfl
  | awaitTake hp | commandFixed hp | commandNoData hp | commandInvalid hp | commandRead hp | commandWrite hp | noData hp
  | dinEmpty hp | dinEmptySense hp | dinReadFail hp | dinDone hp | dinDoneSense hp | dinTimeout hp
  | doutEmpty hp | doutOk hp | doutFail hp | doutTimeout hp | stsDone hp | stsTimeout hp =>
    exact .inr (by rw [hp]; rfl)

theorem EventStep.phase_eq {s t : State} (h : EventStep s t) : t.phase = s.phase := by
  cases h <;> rfl

/-- Settles O45: only a tick changes the phase. -/
theorem phaseOrder : Obligations.PhaseOrder := by
  unfold Obligations.PhaseOrder
  intro s t hi ha hreset h
  obtain ⟨-, _, _, _, _, u, rfl, ⟨-, rfl⟩ | ⟨hr, -⟩ | ⟨e, -, he⟩ | ⟨-, ht⟩⟩ := step_cases s t ha h
  · exact .inl rfl
  · exact absurd hr hreset
  · exact .inl (event_step _ t e he).phase_eq
  · exact (tickOnce_step _ t ht).phase_eq_or_follows

/-! The command in progress -/

/-- The current-command fields of two states agree (R24). -/
def State.SameCommand (s t : State) : Prop :=
  t.curTag = s.curTag ∧ t.curDtl = s.curDtl ∧ t.curFlags = s.curFlags ∧ t.curLun = s.curLun ∧
    t.curCblen = s.curCblen ∧ t.curCb = s.curCb

/-- The command in progress as the CBW that it was taken from. -/
def State.curCbw (s : State) : Cbw :=
  { tag := s.curTag, dtl := s.curDtl, flags := s.curFlags, lun := s.curLun, cblen := s.curCblen, cb := s.curCb }

/-- A tick keeps the command in progress, or it takes the mailbox's (R132, R156). -/
theorem TickStep.sameCommand_or_taken {s t : State} (h : TickStep s t) :
    s.SameCommand t ∨
      (s.phase = .awaitingCbw ∧ s.newCbw = true ∧ t.phase = .commandPhase ∧ t.newCbw = false ∧
        decodeCbw s.mbox = some t.curCbw) := by
  cases h with
  | awaitTake hp hn c hc => exact .inr ⟨hp, hn, rfl, rfl, hc⟩
  | _ => exact .inl ⟨rfl, rfl, rfl, rfl, rfl, rfl⟩

theorem EventStep.sameCommand {s t : State} (h : EventStep s t) : s.SameCommand t := by
  cases h <;> exact ⟨rfl, rfl, rfl, rfl, rfl, rfl⟩

/-- Settles O47: only a tick in `AwaitingCbw` takes a command. -/
theorem oneCommandAtATime : Obligations.OneCommandAtATime := by
  unfold Obligations.OneCommandAtATime
  intro s t hi ha hreset h
  obtain ⟨-, _, _, _, _, u, rfl, ⟨-, rfl⟩ | ⟨hr, -⟩ | ⟨e, -, he⟩ | ⟨-, ht⟩⟩ := step_cases s t ha h
  · exact .inl ⟨rfl, rfl, rfl, rfl, rfl, rfl⟩
  · exact absurd hr hreset
  · exact .inl (event_step _ t e he).sameCommand
  · exact (tickOnce_step _ t ht).sameCommand_or_taken

/-! The flags -/

/-- Settles O48: a tick that writes a flag clears it, and the two ticks that write `rx_count` run while nothing is armed. -/
theorem ticksOnlyClearFlags : Obligations.TicksOnlyClearFlags := by
  unfold Obligations.TicksOnlyClearFlags
  intro s t hi h
  cases tickOnce_step s t h with
  | awaitTake hp =>
    exact ⟨nofun, id, id, rfl, fun hr => absurd hr (by simp [hi.rxArmed_false (by simp [hp])]), rfl⟩
  | doutArm hp hr => exact ⟨id, id, nofun, rfl, fun ha => absurd ha (by simp [hr]), rfl⟩
  | dinReadOk | dinSubmit | dinDone | dinDoneSense | stsStart | stsDone => exact ⟨id, nofun, id, rfl, fun _ => rfl, rfl⟩
  | doutOk | doutFail => exact ⟨id, id, nofun, rfl, fun _ => rfl, rfl⟩
  | _ => exact ⟨id, id, id, rfl, fun _ => rfl, rfl⟩

/-! A submission in flight -/

theorem State.InFlight.of_idle {s : State} (h : s.txState = .idle) : s.InFlight :=
  fun hp => by rw [h] at hp; cases hp

/-- A submission's bytes are in the buffers when it is made; every other tick ends it, waits for it, or has none in flight. -/
theorem TickStep.inFlight {s t : State} (h : TickStep s t) (hi : s.Inv) (hf : s.InFlight) : t.InFlight := by
  cases h with
  | awaitIdle | dinWait | doutWait | stsWait | bad => exact hf
  | dinReadOk | dinSubmit => exact fun _ => ⟨_, _, _, _, rfl, fun _ => ⟨rfl, rfl⟩, nofun⟩
  | stsStart => exact fun _ => ⟨_, _, _, _, rfl, nofun, fun _ => ⟨rfl, rfl, rfl⟩⟩
  | dinDone | dinDoneSense | dinTimeout | stsDone | stsTimeout => exact .of_idle rfl
  | dinEmpty _ ht | dinEmptySense _ ht | dinReadFail _ ht => exact .of_idle ht
  | awaitTake hp | commandFixed hp | commandNoData hp | commandInvalid hp | commandRead hp | commandWrite hp | noData hp
  | doutEmpty hp | doutArm hp | doutOk hp | doutFail hp | doutTimeout hp =>
    exact .of_idle (hi.txState_idle (by simp [hp]) (by simp [hp]))

/-- The only event that writes a buffer comes while a reception is armed, and then nothing is in flight (R34). -/
theorem EventStep.inFlight {s t : State} (h : EventStep s t) (hi : s.Inv) (hf : s.InFlight) : t.InFlight := by
  cases h with
  | unchanged | recorded | posted | completed => exact hf
  | received _ _ _ ha =>
    have hp := (hi.rx_stage ha).1
    exact .of_idle (hi.txState_idle (by simp [hp]) (by simp [hp]))

/-- The tag of a CSW in its bytes 4 to 7 (R75, R105). -/
theorem le32_encodeCsw_tag (tag residue : Word) (status : Byte) : le32 (encodeCsw tag residue status).toList 4 = tag :=
  le32_wordLE (wordLE cswSignature) (wordLE residue ++ [status]) tag 4 rfl

/-- Settles O46: the step lemma for `InFlight`, and the tag of the CSW that it puts in flight. -/
theorem buffersStableInFlight : Obligations.BuffersStableInFlight := by
  unfold Obligations.BuffersStableInFlight
  refine ⟨fun s t hi ha hf h => ?_, fun s hi hf hp ht => ?_⟩
  · obtain ⟨-, rest, now, ok, d, u, rfl, ⟨-, rfl⟩ | ⟨-, hr⟩ | ⟨e, -, he⟩ | ⟨-, ht⟩⟩ := step_cases s t ha h
    · exact hf
    · cases hr
      exact .of_idle rfl
    · exact (event_step _ t e he).inFlight (hi.environment rest now ok d) hf
    · exact (tickOnce_step _ t ht).inFlight (hi.environment rest now ok d) hf
  · have hk : s.txKind = .csw := by simpa [hp] using hi.tx_stage ht
    obtain ⟨bytes, n, limit, earlier, hcalls, -, hcsw⟩ := hf ht
    obtain ⟨rfl, rfl, hbuf⟩ := hcsw hk
    exact ⟨_, limit, earlier, hk ▸ hcalls, by rw [hbuf]; exact le32_encodeCsw_tag _ _ _⟩

end Sys2Proof.Machine
end

section
/-! The two memories: both stay canonical and within their bounds, the offset and length of a block transfer, what a READ(10)
submits and a WRITE(10) stores, and that nothing else writes the flash. -/

namespace Sys2Proof.Machine

/-! Reading after a write -/

/-- A byte written reads as written, where no later byte of the write has its place. -/
theorem Memory.read_writeVia_last (place : Nat → Nat) (m : Memory) (a : Nat) (bs : List Byte) (h : m.wf = true) (i : Nat)
    (hi : i < bs.length) (hlast : ∀ j < bs.length, i < j → place (a + j) ≠ place (a + i)) :
    (Memory.writeVia place m a bs).read (place (a + i)) = bs[i] := by
  induction bs generalizing m a i with
  | nil => cases hi
  | cons b bs ih =>
    have hw := Memory.write_wf m (place a) b h
    show (Memory.writeVia place (m.write (place a) b) (a + 1) bs).read _ = _
    cases i with
    | zero =>
      have hother : ∀ j < bs.length, place (a + 1 + j) ≠ place a := fun j hj => by
        rw [show a + 1 + j = a + (j + 1) by omega]
        exact hlast (j + 1) (Nat.succ_lt_succ hj) (Nat.succ_pos j)
      exact (Memory.read_writeVia_other _ _ _ _ hw _ hother).trans (by simp [Memory.read_write _ _ _ h])
    | succ i =>
      rw [show a + (i + 1) = a + 1 + i by omega] at hlast ⊢
      refine ih _ _ hw i (Nat.lt_of_succ_lt_succ hi) fun j hj hij => ?_
      rw [show a + 1 + j = a + (j + 1) by omega]
      exact hlast (j + 1) (Nat.succ_lt_succ hj) (Nat.succ_lt_succ hij)

theorem byteAt_readVia (place : Nat → Nat) (m : Memory) (a n i : Nat) (hi : i < n) :
    byteAt (Memory.readVia place m a n) i = m.read (place (a + i)) := by
  have hlen : i < (Memory.readVia place m a n).length := by simpa using hi
  rw [byteAt, List.getD_eq_getElem _ _ hlen, Memory.readVia_getElem]

theorem byteAt_loadBuf (s : State) (n i : Nat) (hi : i < n) : byteAt (s.loadBuf n) i = s.buf.read i := by
  rw [State.loadBuf, byteAt_readVia _ _ _ _ _ hi, Nat.zero_add, id]

/-! The canonical form and the bound of a memory (R51, R52) -/

/-- A memory in canonical form that lists no byte from the bound on. -/
def Memory.FitsIn (bound : Nat) (m : Memory) : Prop := m.wf = true ∧ m.below bound = true

theorem Memory.FitsIn.writeVia {bound : Nat} {m : Memory} (h : m.FitsIn bound) (place : Nat → Nat) (a : Nat) (bs : List Byte)
    (hp : ∀ i < bs.length, place (a + i) < bound) : (Memory.writeVia place m a bs).FitsIn bound :=
  ⟨Memory.writeVia_wf _ _ _ _ h.1, Memory.writeVia_below _ _ _ _ _ hp h.2⟩

/-- `buf` and the flash are canonical and lie within `BUF_BYTES` and `FlashSize()`. -/
def State.MemoriesFit (s : State) : Prop := s.buf.FitsIn s.cfg.bufBytes ∧ s.flash.FitsIn s.cfg.flashSize

theorem State.memoriesFit_iff (s : State) :
    s.MemoriesFit ↔
      s.buf.wf = true ∧ s.buf.below s.cfg.bufBytes = true ∧ s.flash.wf = true ∧ s.flash.below s.cfg.flashSize = true :=
  and_assoc

theorem State.MemoriesFit.storeBuf {s : State} (h : s.MemoriesFit) (start : Nat) (bytes : List Byte)
    (hb : bytes.length = 0 ∨ start + bytes.length ≤ s.cfg.bufBytes) : (s.storeBuf start bytes).MemoriesFit :=
  ⟨h.1.writeVia id start bytes fun i hi => by simp only [id]; omega, h.2⟩

theorem State.MemoriesFit.flashStore {s : State} (h : s.MemoriesFit) (hpos : 0 < s.cfg.flashSize) (off : Word)
    (bytes : List Byte) : (s.flashStore off bytes).MemoriesFit :=
  ⟨h.1, h.2.writeVia _ _ bytes fun _ _ => flashPlace_lt _ _ hpos⟩

/-- A fixed payload and a READ(10)'s bytes are stored in `buf`, a WRITE(10)'s in the flash; no other tick writes a memory. -/
theorem TickStep.memoriesFit {s t : State} (h : TickStep s t) (hc : s.cfg.wf = true) (hm : s.MemoriesFit) :
    t.MemoriesFit := by
  obtain ⟨-, -, -, -, hpos, -⟩ := wf_sizes s.cfg hc
  cases h with
  | commandFixed hp k payload calls hk hr hl => exact hm.storeBuf 0 payload (by omega)
  | dinReadOk hp ht hx hk ho hl m hread => subst hread; exact hm.storeBuf 0 _ (by simpa using .inr hl)
  | doutOk | doutFail => exact hm.flashStore hpos _ _
  | _ => exact hm

theorem EventStep.memoriesFit {s t : State} (h : EventStep s t) (hm : s.MemoriesFit) : t.MemoriesFit := by
  cases h with
  | unchanged | recorded | posted | completed => exact hm
  | received bytes n faults ha hd hn hl hb hf =>
    exact hm.storeBuf s.rxCount.toNat (bytes.take n) (by rwa [List.length_take_of_le hn])

/-- Settles O58, by the cases of a step, and by what a free state is after a ghost fault. -/
theorem memoriesStayCanonical : Obligations.MemoriesStayCanonical := by
  unfold Obligations.MemoriesStayCanonical
  intro s t hbw hbb hfw hfb h
  have hm : s.MemoriesFit := ⟨⟨hbw, hbb⟩, hfw, hfb⟩
  rw [← State.memoriesFit_iff]
  by_cases ha : s.admitted
  · obtain ⟨hc, _, _, _, _, u, rfl, ⟨-, rfl⟩ | ⟨-, hr⟩ | ⟨e, -, he⟩ | ⟨-, ht⟩⟩ := step_cases s t ha h
    · exact hm
    · cases hr
      exact ⟨State.freeBuf_memory _, hm.2⟩
    · exact (event_step _ t e he).memoriesFit hm
    · exact (tickOnce_step _ t ht).memoriesFit hc hm
  · obtain ⟨rest, d, hs⟩ := step_faulted s (wf_of_step_next s t h) ha
    cases hs.symm.trans h
    exact (State.memoriesFit_iff _).2 (State.ungoverned_memories _)

/-! The operands of a block transfer (R80, R117, R118) -/

theorem exec_read10 (args : BlockArgs) (s : State) :
    exec (.read10 args) s =
      .next { s with
        hkind := .read10, cswStatus := 0x00, flashOff := offsetOf s.cfg args.lba, xferLen := lengthOf s.cfg args.blocks,
        phase := .dataInPhase } := rfl

theorem exec_write10 (args : BlockArgs) (s : State) :
    exec (.write10 args) s =
      .next { s with
        hkind := .write10, cswStatus := 0x00, flashOff := offsetOf s.cfg args.lba, xferLen := lengthOf s.cfg args.blocks,
        phase := .dataOutPhase } := rfl

/-- Settles O17: both commands take `lengthOf`, and the laws of `lengthOf` and `offsetOf` say the rest. -/
theorem blockTransferOperands : Obligations.BlockTransferOperands := by
  unfold Obligations.BlockTransferOperands
  intro args s
  exact ⟨lengthOf s.cfg args.blocks, exec_read10 args s, exec_write10 args s, lengthOf_toNat s.cfg args.blocks,
    fun hc => ⟨lengthOf_aligned s.cfg hc _, lengthOf_le s.cfg hc _, offsetOf_aligned s.cfg hc _⟩⟩

/-! The start of a READ(10)'s data stage (R136, R137) -/

/-- `buf` after a `FlashRead` of the transfer that returned `ok`. -/
def State.bufAfterRead (s : State) : Memory :=
  Memory.writeVia id s.buf 0 (s.flashBytes s.flashOff s.xferLen.toNat)

theorem exec_tickDinStart_read10_ok (s : State) (hk : s.hkind = .read10) (hx : s.xferLen ≠ 0) (ho : s.flashOk = true)
    (hl : s.xferLen.toNat ≤ s.cfg.bufBytes) :
    exec .tickDinStart s =
      .next { s with
        buf := s.bufAfterRead, txDone := false, txKind := .data, txStart := s.clock, txState := .pending,
        calls := .txSubmit .data (Memory.readVia id s.bufAfterRead 0 s.xferLen.toNat) s.xferLen s.cfg.tDataMs ::
          .flashRead s.flashOff s.xferLen true :: s.calls } := by
  show execTickDinStart s = _
  conv_lhs =>
    rw [execTickDinStart, if_neg hx, if_pos hk, State.readThenSubmit, if_pos ho, State.withinBuf_of_le _ _ _ hl, ho]
  rfl

theorem exec_tickDinStart_read10_fail (s : State) (hk : s.hkind = .read10) (hx : s.xferLen ≠ 0) (ho : s.flashOk = false) :
    exec .tickDinStart s =
      .next { s with
        senseValid := true, senseKey := s.cfg.senseMediumRead.key, senseAsc := s.cfg.senseMediumRead.asc,
        senseAscq := s.cfg.senseMediumRead.ascq, cswStatus := 0x01, xferred := 0, phase := .statusPhase,
        calls := .flashRead s.flashOff s.xferLen false :: s.calls } := by
  show execTickDinStart s = _
  conv_lhs => rw [execTickDinStart, if_neg hx, if_pos hk, State.readThenSubmit, if_neg (by simp [ho]), ho]
  rfl

theorem State.read_bufAfterRead_of_lt (s : State) (hw : s.buf.wf = true) (a : Nat) (ha : a < s.xferLen.toNat) :
    s.bufAfterRead.read a = s.flash.read (flashPlace s.cfg (s.flashOff.toNat + a)) := by
  have hlen : a < (s.flashBytes s.flashOff s.xferLen.toNat).length := by simpa using ha
  have hstored := Memory.read_writeVia_last id s.buf 0 _ hw a hlen fun j _ hj => by simp only [id]; omega
  rw [Nat.zero_add, id] at hstored
  rw [State.bufAfterRead, hstored]
  exact Memory.readVia_getElem _ _ _ _ _ _

theorem State.read_bufAfterRead_of_le (s : State) (hw : s.buf.wf = true) (a : Nat) (ha : s.xferLen.toNat ≤ a) :
    s.bufAfterRead.read a = s.buf.read a := by
  refine Memory.read_writeVia_other _ _ _ _ hw _ fun i hi => ?_
  rw [State.flashBytes_length] at hi
  simp only [id]
  omega

/-- The bytes submitted are the bytes read. -/
theorem State.readVia_bufAfterRead (s : State) (hw : s.buf.wf = true) :
    Memory.readVia id s.bufAfterRead 0 s.xferLen.toNat = s.flashBytes s.flashOff s.xferLen.toNat := by
  have hback := Memory.readVia_writeVia id s.buf 0 (s.flashBytes s.flashOff s.xferLen.toNat) hw
    fun _ _ _ _ h => Nat.add_left_cancel h
  rwa [State.flashBytes_length] at hback

/-- Settles O28: the start tick in the two answers of the flash store, and the bytes of `buf` inside the transfer and beyond. -/
theorem readStageStarts : Obligations.ReadStageStarts := by
  unfold Obligations.ReadStageStarts
  intro s hk hx
  refine ⟨fun ho hl => ?_, exec_tickDinStart_read10_fail s hk hx⟩
  refine ⟨_, _, exec_tickDinStart_read10_ok s hk hx ho hl, Memory.readVia_length _ _ _ _, fun hw => ?_⟩
  refine ⟨Memory.writeVia_wf _ _ _ _ hw, fun a => ?_⟩
  split
  · rename_i ha
    exact ⟨s.read_bufAfterRead_of_lt hw a ha, by rw [byteAt_readVia _ _ _ _ _ ha, Nat.zero_add, id]⟩
  · rename_i ha
    exact s.read_bufAfterRead_of_le hw a (Nat.le_of_not_lt ha)

/-! The end of a WRITE(10)'s reception (R142, R144) -/

/-- A flash call of the transfer's length changes no place outside the transfer's range, whatever bytes it writes (R56). -/
theorem State.read_flashStore_outside (s : State) (hw : s.flash.wf = true) (bytes : List Byte)
    (hlen : bytes.length = s.xferLen.toNat) (a : Nat)
    (ha : ∀ i < s.xferLen.toNat, flashPlace s.cfg (s.flashOff.toNat + i) ≠ a) :
    (s.flashStore s.flashOff bytes).flash.read a = s.flash.read a :=
  Memory.read_writeVia_other _ _ _ _ hw _ (hlen ▸ ha)

theorem exec_tickDoutWait_of_dataDone (s : State) (hd : s.dataDone = true) (hl : s.xferLen.toNat ≤ s.cfg.bufBytes) :
    exec .tickDoutWait s = .next s.finishReception := by
  show execTickDoutWait s = _
  rw [execTickDoutWait, if_pos hd, State.withinBuf_of_le _ _ _ hl]

theorem exec_tickDoutWait_ok (s : State) (hd : s.dataDone = true) (hl : s.xferLen.toNat ≤ s.cfg.bufBytes)
    (ho : s.flashOk = true) :
    exec .tickDoutWait s =
      .next { s with
        dataDone := false, rxArmed := false, xferred := s.rxCount, phase := .statusPhase,
        flash := (s.flashStore s.flashOff (s.loadBuf s.xferLen.toNat)).flash,
        calls := .flashWrite s.flashOff (s.loadBuf s.xferLen.toNat) s.xferLen true :: s.calls } := by
  rw [exec_tickDoutWait_of_dataDone s hd hl, State.finishReception_eq, if_pos ho, ho]
  rfl

theorem exec_tickDoutWait_fail (s : State) (hd : s.dataDone = true) (hl : s.xferLen.toNat ≤ s.cfg.bufBytes)
    (ho : s.flashOk = false) :
    exec .tickDoutWait s =
      .next { s with
        dataDone := false, rxArmed := false, xferred := s.rxCount, phase := .statusPhase,
        flash := (s.flashStore s.flashOff (s.freeBytes s.xferLen.toNat)).flash, draws := s.draws + s.xferLen.toNat,
        cswStatus := 0x01, senseValid := true, senseKey := s.cfg.senseMediumWrite.key,
        senseAsc := s.cfg.senseMediumWrite.asc, senseAscq := s.cfg.senseMediumWrite.ascq,
        calls := .flashWrite s.flashOff (s.loadBuf s.xferLen.toNat) s.xferLen false :: s.calls } := by
  rw [exec_tickDoutWait_of_dataDone s hd hl, State.finishReception_eq, if_neg (by simp [ho]), ho]
  rfl

/-- A byte received reads at its place in the flash, where no later byte of the transfer has that place. -/
theorem State.read_flashStore_loadBuf (s : State) (hw : s.flash.wf = true) (i : Nat) (hi : i < s.xferLen.toNat)
    (hlast : ∀ j < s.xferLen.toNat, i < j →
      flashPlace s.cfg (s.flashOff.toNat + j) ≠ flashPlace s.cfg (s.flashOff.toNat + i)) :
    (s.flashStore s.flashOff (s.loadBuf s.xferLen.toNat)).flash.read (flashPlace s.cfg (s.flashOff.toNat + i)) =
      s.buf.read i := by
  have hlen : i < (s.loadBuf s.xferLen.toNat).length := by simpa using hi
  rw [← byteAt_loadBuf s _ i hi, byteAt, List.getD_eq_getElem _ _ hlen]
  exact Memory.read_writeVia_last _ _ _ _ hw i hlen (by simpa using hlast)

/-- Settles O32: the wait tick in the two answers of the flash store; both write places of the range only. -/
theorem receptionWritten : Obligations.ReceptionWritten := by
  unfold Obligations.ReceptionWritten
  intro s hd hl hw
  refine ⟨fun ho => ⟨_, exec_tickDoutWait_ok s hd hl ho, Memory.writeVia_wf _ _ _ _ hw, ?_, ?_⟩,
    fun ho => ⟨_, _, exec_tickDoutWait_fail s hd hl ho, Memory.writeVia_wf _ _ _ _ hw, ?_⟩⟩
  · exact s.read_flashStore_outside hw _ (s.loadBuf_length _)
  · exact s.read_flashStore_loadBuf hw
  · exact s.read_flashStore_outside hw _ (s.freeBytes_length _)

/-! What writes the flash (R51, R121, R155) -/

/-- The tick of a complete reception writes the flash, in the range of its call; no other tick does. -/
theorem TickStep.flash_eq_or_written {s t : State} (h : TickStep s t) (hw : s.flash.wf = true) :
    t.flash = s.flash ∨
      (s.phase = .dataOutPhase ∧ s.rxArmed = true ∧ s.dataDone = true ∧
        ∀ a, (∀ i < s.xferLen.toNat, flashPlace s.cfg (s.flashOff.toNat + i) ≠ a) → t.flash.read a = s.flash.read a) := by
  cases h with
  | doutOk hp hr hd => exact .inr ⟨hp, hr, hd, s.read_flashStore_outside hw _ (s.loadBuf_length _)⟩
  | doutFail hp hr hd => exact .inr ⟨hp, hr, hd, s.read_flashStore_outside hw _ (s.freeBytes_length _)⟩
  | _ => exact .inl rfl

theorem EventStep.flash_eq {s t : State} (h : EventStep s t) : t.flash = s.flash := by
  cases h <;> rfl

/-- Settles O51, by the cases of a step: of these only a tick writes the flash. -/
theorem flashWrittenOnlyByWrite : Obligations.FlashWrittenOnlyByWrite := by
  unfold Obligations.FlashWrittenOnlyByWrite
  intro s t ha h hw
  obtain ⟨-, _, _, _, _, u, rfl, ⟨-, rfl⟩ | ⟨-, hr⟩ | ⟨e, -, he⟩ | ⟨-, ht⟩⟩ := step_cases s t ha h
  · exact .inl rfl
  · cases hr
    exact .inl rfl
  · exact .inl (event_step _ t e he).flash_eq
  · exact (tickOnce_step _ t ht).flash_eq_or_written hw

/-! What is written is read back (R56) -/

/-- Two bytes of a range have two places, where the range is no longer than the flash under `ModSize`, or lies inside it. -/
theorem flashPlace_injective_on (c : Config) (off n : Nat)
    (hr : (c.flashAddrMap = .modSize ∧ n ≤ c.flashSize) ∨ off + n ≤ c.flashSize) (i j : Nat) (hi : i < n) (hj : j < n)
    (h : flashPlace c (off + i) = flashPlace c (off + j)) : i = j := by
  rcases hr with ⟨hmod, hn⟩ | hn
  · rw [flashPlace_modSize c _ hmod, flashPlace_modSize c _ hmod] at h
    exact (Nat.ModEq.add_left_cancel' off h).eq_of_lt_of_lt (hi.trans_le hn) (hj.trans_le hn)
  · rw [flashPlace_of_lt c _ (by omega), flashPlace_of_lt c _ (by omega)] at h
    exact Nat.add_left_cancel h

/-- A `FlashRead` of the range just written returns the bytes written. -/
theorem State.flashBytes_flashStore (s : State) (off : Word) (bytes : List Byte) (hw : s.flash.wf = true)
    (hr : (s.cfg.flashAddrMap = .modSize ∧ bytes.length ≤ s.cfg.flashSize) ∨ off.toNat + bytes.length ≤ s.cfg.flashSize) :
    (s.flashStore off bytes).flashBytes off bytes.length = bytes :=
  Memory.readVia_writeVia _ _ _ _ hw (flashPlace_injective_on s.cfg off.toNat bytes.length hr)

/-- Settles O52: the start tick submits what the flash holds in the range, and that is what the wait tick stored there. -/
theorem writeThenReadRoundTrip : Obligations.WriteThenReadRoundTrip := by
  unfold Obligations.WriteThenReadRoundTrip
  intro s t u _ hw hd ho hl hr hs hcfg hflash hbuf hk hoff hlen hx huo
  cases (exec_tickDoutWait_ok s hd hl ho).symm.trans hs
  have hread : u.flashBytes u.flashOff u.xferLen.toNat = s.loadBuf s.xferLen.toNat := by
    have hback := s.flashBytes_flashStore s.flashOff (s.loadBuf s.xferLen.toNat) hw (by simpa using hr)
    rw [State.loadBuf_length] at hback
    rwa [State.flashBytes, hcfg, hflash, hoff, hlen]
  have hsubmit := exec_tickDinStart_read10_ok u hk (hlen ▸ hx) huo (by rwa [hlen, hcfg])
  rw [u.readVia_bufAfterRead hbuf, hread] at hsubmit
  exact ⟨_, _, hsubmit, by rw [hlen, hcfg]⟩

end Sys2Proof.Machine
end

section
/-! The encodings: decoding what the encoder writes, and encoding what the decoder reads, one format at a time. -/

namespace Sys2Proof

/-! Bytes and words -/

@[simp] theorem byteAt_cons_zero (b : Byte) (bs : List Byte) : byteAt (b :: bs) 0 = b := rfl

theorem le32_wordLE_zero (v : Word) (after : List Byte) : le32 (wordLE v ++ after) 0 = v := le32_wordLE [] after v 0 rfl

/-- A little-endian word is read at the start of a sequence exactly where its bytes lie there (R9). -/
theorem le32_zero_eq_iff (bs : List Byte) (h : 4 ≤ bs.length) (v : Word) : le32 bs 0 = v ↔ bs.take 4 = wordLE v := by
  constructor
  · rintro rfl
    exact (wordLE_le32 bs 0 h).symm
  · intro ht
    rw [← List.take_append_drop 4 bs, ht]
    exact le32_wordLE_zero v _

/-! Command blocks (R70, R77, R79, R81) -/

/-- The command block of an opcode and fifteen further bytes. -/
def cdbOf (opcode : Byte) (tail : Bytes 15) : Bytes 16 := ⟨opcode :: tail.toList, by simp [tail.length_eq]⟩

@[simp] theorem byteAt_cdbOf_zero (opcode : Byte) (tail : Bytes 15) : byteAt (cdbOf opcode tail).toList 0 = opcode := rfl

@[simp] theorem cdbTail_cdbOf (opcode : Byte) (tail : Bytes 15) : cdbTail (cdbOf opcode tail) = tail :=
  Bytes.fit_self tail

/-- Every command block is that of its opcode and its tail. -/
theorem cdbOf_cdbTail (cb : Bytes 16) : cdbOf (byteAt cb.toList 0) (cdbTail cb) = cb := by
  obtain ⟨_ | ⟨b, bs⟩, hl⟩ := cb
  · cases hl
  · exact Bytes.ext_toList (congrArg (b :: ·) (fitList_eq 15 bs (Nat.succ.inj hl)))

/-- The fifteen bytes of a block transfer's operands (R79). -/
def blockArgsTail (a : BlockArgs) : Bytes 15 := ⟨blockArgsBytes a, blockArgsBytes_length a⟩

@[simp] theorem cdbBlockArgs_cdbOf (opcode : Byte) (a : BlockArgs) : cdbBlockArgs (cdbOf opcode (blockArgsTail a)) = a := by
  simp [cdbBlockArgs, cdbOf, blockArgsTail, blockArgsBytes, byteAt, be32, be16, wordBE, halfBE, word_of_bytes,
    half_of_bytes]

/-- The operands of a command block hold every byte of its tail. -/
theorem blockArgsTail_cdbBlockArgs (cb : Bytes 16) : blockArgsTail (cdbBlockArgs cb) = cdbTail cb := by
  refine Bytes.ext_toList ?_
  obtain ⟨bs, hl⟩ := cb
  match bs, hl with
  | [_, _, _, _, _, _, _, _, _, _, _, _, _, _, _, _], _ =>
    simp [blockArgsTail, blockArgsBytes, cdbBlockArgs, cdbTail, byteAt, be32, be16, wordBE_of_bytes, halfBE_of_bytes,
      fitList]

/-- The opcode of a row that has one of its own (R81). -/
def CdbRow.opcode : CdbRow → Option Byte
  | .testUnitReady => some 0x00
  | .requestSense => some 0x03
  | .inquiry => some 0x12
  | .modeSense6 => some 0x1A
  | .startStopUnit => some 0x1B
  | .preventAllowMediumRemoval => some 0x1E
  | .readCapacity10 => some 0x25
  | .read10 => some 0x28
  | .write10 => some 0x2A
  | .invalid => none

/-- No two opcodes share a row of their own, and no opcode is outside its row (R81). -/
theorem eq_of_cdbRow {op c : Byte} {r : CdbRow} (h : cdbRow op = r) (hc : r.opcode = some c) : op = c := by
  subst h
  unfold cdbRow at hc
  repeat' split at hc
  all_goals cases hc
  all_goals assumption

/-- The row of the opcodes without a row of their own (R81, R92). -/
theorem cdbRow_eq_invalid_iff (op : Byte) : cdbRow op = .invalid ↔ op ∉ namedOpcodes := by
  have hnamed : ∀ c ∈ namedOpcodes, cdbRow c ≠ .invalid := by decide
  have hrow : ∀ r : CdbRow, r = .invalid ∨ ∃ c ∈ namedOpcodes, r.opcode = some c := fun r => by cases r <;> decide
  refine ⟨fun h hm => hnamed op hm h, fun h => (hrow (cdbRow op)).resolve_right ?_⟩
  rintro ⟨c, hm, hc⟩
  exact h (eq_of_cdbRow rfl hc ▸ hm)

@[simp] theorem decode_cdb_cdbOf (opcode : Byte) (tail : Bytes 15) :
    decode .cdb (opcode :: tail.toList) = .ok (decodeCdb (cdbOf opcode tail)) := by
  have hl : (opcode :: tail.toList).length = 16 := (cdbOf opcode tail).length_eq
  rw [decode, if_pos hl]
  exact congrArg (Except.ok ∘ decodeCdb) (Bytes.fit_self (cdbOf opcode tail))

/-- A decoded command block is the one that the encoder writes, and its row is the only one for its opcode. -/
theorem encode_decodeCdb (cb : Bytes 16) :
    (decodeCdb cb).format = .cdb ∧ encode (decodeCdb cb) = cb.toList ∧ (decodeCdb cb).wf = true := by
  have hlist : byteAt cb.toList 0 :: (cdbTail cb).toList = cb.toList := congrArg Bytes.toList (cdbOf_cdbTail cb)
  have hargs : blockArgsBytes (cdbBlockArgs cb) = (cdbTail cb).toList :=
    congrArg Bytes.toList (blockArgsTail_cdbBlockArgs cb)
  unfold decodeCdb
  cases hr : cdbRow (byteAt cb.toList 0) with
  | testUnitReady | requestSense | inquiry | modeSense6 | startStopUnit | preventAllowMediumRemoval | readCapacity10 =>
    rw [eq_of_cdbRow hr rfl] at hlist
    exact ⟨rfl, hlist, rfl⟩
  | read10 | write10 =>
    rw [eq_of_cdbRow hr rfl, ← hargs] at hlist
    exact ⟨rfl, hlist, rfl⟩
  | invalid => exact ⟨rfl, hlist, by simpa [Instr.wf] using (cdbRow_eq_invalid_iff _).1 hr⟩

/-! Wrappers (R71, R72, R101) -/

/-- A wrapper is malformed exactly where its first four bytes are not the signature. -/
theorem decodeCbw_eq_none_iff (raw : Bytes 31) : decodeCbw raw = none ↔ raw.toList.take 4 ≠ signatureBytes := by
  have hsig := le32_zero_eq_iff raw.toList (by rw [raw.length_eq]; decide) cbwSignature
  show _ ↔ ¬raw.toList.take 4 = wordLE cbwSignature
  rw [← hsig]
  simp [decodeCbw]

theorem decodeCbw_encodeCbw (c : Cbw) : decodeCbw (encodeCbw c) = some c := by
  have hsig : le32 (encodeCbw c).toList 0 = cbwSignature := by
    rw [encodeCbw_toList]
    exact le32_wordLE_zero cbwSignature _
  simp only [decodeCbw, hsig, if_true]
  simp [encodeCbw_toList, signatureBytes, byteAt, le32, wordLE, word_of_bytes]

/-- No byte of a wrapper is dropped (R74). -/
theorem encodeCbw_of_decodeCbw {raw : Bytes 31} {c : Cbw} (h : decodeCbw raw = some c) : encodeCbw c = raw := by
  have hsig : le32 raw.toList 0 = cbwSignature := by
    by_contra hs
    simp [decodeCbw, hs] at h
  simp only [decodeCbw, hsig, if_true, Option.some.injEq] at h
  subst h
  refine Bytes.ext_toList ?_
  rw [encodeCbw_toList, show signatureBytes = wordLE (le32 raw.toList 0) by rw [hsig]; rfl]
  obtain ⟨bs, hl⟩ := raw
  match bs, hl with
  | [_, _, _, _, _, _, _, _, _, _, _, _, _, _, _, _, _, _, _, _, _, _, _, _, _, _, _, _, _, _, _], _ =>
    simp [byteAt, le32, wordLE_of_bytes, fitList]

theorem decode_cbw_toList (raw : Bytes 31) : decode .cbw raw.toList = .ok (decodeWrapper raw) := by
  rw [decode, if_pos raw.length_eq, Bytes.fit_self]

theorem encode_decodeWrapper (raw : Bytes 31) :
    (decodeWrapper raw).format = .cbw ∧ encode (decodeWrapper raw) = raw.toList ∧ (decodeWrapper raw).wf = true := by
  unfold decodeWrapper
  cases hd : decodeCbw raw with
  | some c => exact ⟨rfl, congrArg Bytes.toList (encodeCbw_of_decodeCbw hd), rfl⟩
  | none => exact ⟨rfl, rfl, bne_iff_ne.2 ((decodeCbw_eq_none_iff raw).1 hd)⟩

/-! Event records (R87) -/

theorem decodeEventBytes_cbw (raw : Bytes 31) : decodeEventBytes (0x01 :: raw.toList) = .ok (.evCbw raw) := by
  simp [decodeEventBytes, raw.length_eq, decodeEvent]

theorem decodeEventBytes_data (bytes : List Byte) (h : bytes.length < 2 ^ 32) :
    decodeEventBytes (0x02 :: (wordLE (BitVec.ofNat 32 bytes.length) ++ bytes)) = .ok (.evData bytes) := by
  have hlen : (le32 (wordLE (BitVec.ofNat 32 bytes.length) ++ bytes) 0).toNat = bytes.length := by
    rw [le32_wordLE_zero, BitVec.toNat_ofNat, Nat.mod_eq_of_lt h]
  have hdata : (wordLE (BitVec.ofNat 32 bytes.length) ++ bytes).drop 4 = bytes := List.drop_left' (wordLE_length _)
  simp [decodeEventBytes, hlen, hdata, decodeEvent]

/-- The length and the data of an event record are its bytes after the kind, if there are as many as the length says. -/
theorem evData_bytes {rest : List Byte} (h : rest.length = 4 + (le32 rest 0).toNat) :
    wordLE (BitVec.ofNat 32 (rest.drop 4).length) ++ rest.drop 4 = rest ∧ (rest.drop 4).length < 2 ^ 32 := by
  have hlen : (rest.drop 4).length = (le32 rest 0).toNat := by rw [List.length_drop, h, Nat.add_sub_cancel_left]
  rw [hlen, BitVec.ofNat_toNat, BitVec.setWidth_eq, wordLE_le32 rest 0 (by omega), List.drop_zero]
  exact ⟨List.take_append_drop 4 rest, (le32 rest 0).isLt⟩

/-- A decoded event record is the one that the encoder writes. -/
theorem encode_of_decodeEventBytes {bs : List Byte} {i : Instr} (h : decodeEventBytes bs = .ok i) :
    i.format = .event ∧ encode i = bs ∧ i.wf = true := by
  cases bs with
  | nil => cases h
  | cons kind rest =>
    rw [decodeEventBytes] at h
    split_ifs at h with h0 hr h1 hr h2 hr h3 hr <;> cases h
    · obtain rfl := List.length_eq_zero_iff.1 hr
      exact ⟨rfl, h0 ▸ rfl, rfl⟩
    · exact ⟨rfl, h1 ▸ congrArg (0x01 :: ·) (fitList_eq 31 rest hr), rfl⟩
    · obtain ⟨hbytes, hlt⟩ := evData_bytes hr
      exact ⟨rfl, h2 ▸ congrArg (0x02 :: ·) hbytes, decide_eq_true hlt⟩
    · obtain rfl := List.length_eq_zero_iff.1 hr
      exact ⟨rfl, h3 ▸ rfl, rfl⟩

/-! The round trips -/

/-- Settles O1, by the rows: the command blocks by their opcode, the wrappers by their signature, the event records by their
kind, and each tick's selector as it stands. -/
theorem decodeUndoesEncode : Obligations.DecodeUndoesEncode := by
  unfold Obligations.DecodeUndoesEncode
  intro i hi
  cases i with
  | testUnitReady tail | requestSense tail | inquiry tail | modeSense6 tail | startStopUnit tail
  | preventAllowMediumRemoval tail | readCapacity10 tail =>
    simp [Instr.format, encode, decodeCdb, cdbRow]
  | read10 args | write10 args =>
    refine (decode_cdb_cdbOf _ (blockArgsTail args)).trans ?_
    simp [decodeCdb, cdbRow]
  | invalid opcode tail =>
    have hrow : cdbRow opcode = .invalid := (cdbRow_eq_invalid_iff opcode).2 (by simpa [Instr.wf] using hi)
    simp [Instr.format, encode, decodeCdb, hrow]
  | cbwValid c =>
    refine (decode_cbw_toList (encodeCbw c)).trans ?_
    rw [decodeWrapper, decodeCbw_encodeCbw]
  | cbwMalformed raw =>
    refine (decode_cbw_toList raw).trans ?_
    rw [decodeWrapper, (decodeCbw_eq_none_iff raw).2 (bne_iff_ne.1 hi)]
  | evCbw raw => exact decodeEventBytes_cbw raw
  | evData bytes => exact decodeEventBytes_data bytes (of_decide_eq_true hi)
  | evReserved | evTxdone | tickAwait | tickCommand | tickDinStart | tickDinWait | tickDoutArm | tickDoutWait | tickNodata
  | tickStsStart | tickStsWait | tickBad | reset => rfl

/-- Settles O2, one format at a time. -/
theorem encodeUndoesDecode : Obligations.EncodeUndoesDecode := by
  unfold Obligations.EncodeUndoesDecode
  intro f bs i hf h
  cases f with
  | cdb =>
    rw [decode] at h
    split at h <;> cases h
    rename_i hl
    have hround := encode_decodeCdb (Bytes.fit 16 bs)
    rwa [Bytes.fit_toList, fitList_eq 16 bs hl] at hround
  | cbw =>
    rw [decode] at h
    split at h <;> cases h
    rename_i hl
    have hround := encode_decodeWrapper (Bytes.fit 31 bs)
    rwa [Bytes.fit_toList, fitList_eq 31 bs hl] at hround
  | event => exact encode_of_decodeEventBytes h
  | tick => exact absurd rfl hf
  | reset =>
    rw [decode] at h
    split at h <;> cases h
    rename_i hl
    exact ⟨rfl, (List.length_eq_zero_iff.1 hl).symm, rfl⟩

/-- Settles O3: the decoder evaluates each word. -/
theorem sampleWordsDecode : Obligations.SampleWordsDecode := by
  unfold Obligations.SampleWordsDecode
  exact ⟨rfl, rfl, rfl, rfl, rfl, rfl⟩

end Sys2Proof
end

section
/-! The fixed data-in payloads in `buf`, the CSW that the status stage submits, and how soon ticks without events settle. -/

namespace Sys2Proof.Machine

/-! A fixed payload (R112-R115, R120) -/

/-- What `buf` reads after bytes are stored from an index on: the bytes there, and its own elsewhere. -/
theorem Memory.read_writeVia_id (m : Memory) (start : Nat) (bs : List Byte) (h : m.wf = true) (a : Nat) :
    (Memory.writeVia id m start bs).read a =
      if start ≤ a ∧ a < start + bs.length then byteAt bs (a - start) else m.read a := by
  split
  · rename_i ha
    obtain ⟨i, rfl⟩ := Nat.exists_eq_add_of_le ha.1
    have hi : i < bs.length := Nat.lt_of_add_lt_add_left ha.2
    have hread := Memory.read_writeVia_same id m start bs h (fun _ _ _ _ e => Nat.add_left_cancel e) i hi
    rw [Nat.add_sub_cancel_left, byteAt, List.getD_eq_getElem _ _ hi]
    exact hread
  · rename_i ha
    exact Memory.read_writeVia_other id m start bs h a fun i hi e => ha (by simp only [id] at e; omega)

/-- What a handler of the class data-in leaves whose payload lies in the buffer (R112-R115). -/
theorem State.sendFixed_eq (s : State) {k : HandlerKind} {payload : List Byte} (hk : k.dataClass = .dataIn)
    (hl : payload.length ≤ s.cfg.bufBytes) :
    s.sendFixed k payload =
      .next { s with
        hkind := k, cswStatus := 0x00, xferLen := s.fixedLen payload.length, flashOff := 0,
        buf := Memory.writeVia id s.buf 0 payload, phase := .dataInPhase } := by
  rw [State.sendFixed, State.withinBuf_of_le _ _ _ hl, State.enterStage, hk]
  rfl

/-- A row that sends a fixed payload, after calls of its own, answers with it. -/
theorem answersWith_of_sendFixed {i : Instr} {k : HandlerKind} {payload : List Byte} {calls : List Call} {s : State}
    (hk : k.dataClass = .dataIn) (hl : payload.length ≤ s.cfg.bufBytes)
    (h : exec i s = ({ s with calls := calls } : State).sendFixed k payload) : AnswersWith i k payload calls s := by
  refine ⟨Memory.writeVia id s.buf 0 payload, h.trans (State.sendFixed_eq _ hk hl), fun hw => ?_⟩
  exact ⟨Memory.writeVia_wf _ _ _ _ hw, fun a => by simpa using Memory.read_writeVia_id s.buf 0 payload hw a⟩

/-! Every payload lies in the buffer of an admitted configuration, which holds 65535 blocks (R6) -/

theorem State.sensePayload_fits (s : State) (hc : s.cfg.wf = true) : s.sensePayload.length ≤ s.cfg.bufBytes := by
  obtain ⟨-, -, -, hbuf, -⟩ := wf_sizes s.cfg hc
  show 18 ≤ _
  omega

theorem inquiryData_fits {c : Config} (hc : c.wf = true) : c.inquiryData.toList.length ≤ c.bufBytes := by
  obtain ⟨-, -, -, hbuf, -⟩ := wf_sizes c hc
  rw [c.inquiryData.length_eq]
  omega

theorem modeSenseData_fits {c : Config} (hc : c.wf = true) : c.modeSenseData.length ≤ c.bufBytes := by
  obtain ⟨-, -, -, hbuf, -, hmode⟩ := wf_sizes c hc
  omega

theorem readCapacityPayload_fits {c : Config} (hc : c.wf = true) : (readCapacityPayload c).length ≤ c.bufBytes := by
  obtain ⟨-, -, -, hbuf, -⟩ := wf_sizes c hc
  show 8 ≤ _
  omega

/-! The payloads (R83, R86) -/

theorem State.sensePayload_of_valid (s : State) (h : s.senseValid = true) :
    s.sensePayload =
      [0x70, 0x00, s.senseKey.setWidth 8, 0x00, 0x00, 0x00, 0x00, 0x0A, 0x00, 0x00, 0x00, 0x00, s.senseAsc, s.senseAscq,
       0x00, 0x00, 0x00, 0x00] := by
  simp only [State.sensePayload, State.latchValue, h, if_true]

theorem State.sensePayload_of_empty (s : State) (h : s.senseValid = false) :
    s.sensePayload =
      [0x70, 0x00, 0x00, 0x00, 0x00, 0x00, 0x00, 0x0A, 0x00, 0x00, 0x00, 0x00, 0x00, 0x00, 0x00, 0x00, 0x00, 0x00] := by
  simp [State.sensePayload, State.latchValue, h]

theorem readCapacityValue_eq (c : Config) :
    readCapacityValue c =
      if c.readcapMode = .blockCount then c.flashSize / c.blockSize else c.flashSize / c.blockSize - 1 := by
  unfold readCapacityValue
  cases c.readcapMode <;> rfl

/-- Settles O12: the payload in both cases of the latch. -/
theorem requestSenseAnswers : Obligations.RequestSenseAnswers := by
  unfold Obligations.RequestSenseAnswers
  intro tail s hc
  have hanswer : AnswersWith (.requestSense tail) .reqsense s.sensePayload s.calls s :=
    answersWith_of_sendFixed rfl (s.sensePayload_fits hc) rfl
  exact ⟨fun hv => s.sensePayload_of_valid hv ▸ hanswer, fun he => s.sensePayload_of_empty he ▸ hanswer⟩

/-- Settles O13: both configured payloads lie in the buffer. -/
theorem inquiryAndModeSenseAnswer : Obligations.InquiryAndModeSenseAnswer := by
  unfold Obligations.InquiryAndModeSenseAnswer
  intro tail s hc
  exact ⟨answersWith_of_sendFixed rfl (inquiryData_fits hc) rfl, answersWith_of_sendFixed rfl (modeSenseData_fits hc) rfl⟩

/-- Settles O14: the payload in both modes, after the one call. -/
theorem readCapacityAnswers : Obligations.ReadCapacityAnswers := by
  unfold Obligations.ReadCapacityAnswers
  intro tail s hc
  rw [← readCapacityValue_eq]
  exact answersWith_of_sendFixed rfl (readCapacityPayload_fits hc) rfl

/-! The CSW (R103, R150, R151) -/

/-- The residue is the difference of the two lengths, clamped at 0. -/
theorem State.residue_eq_ofNat_sub (s : State) : s.residue = BitVec.ofNat 32 (s.curDtl.toNat - s.xferred.toNat) := by
  unfold State.residue
  split
  · bv_omega
  · rename_i h
    rw [Nat.sub_eq_zero_of_le (Nat.le_of_not_le h)]
    rfl

/-- The bytes of a CSW in order (R75). -/
theorem encodeCsw_toList (tag residue : Word) (status : Byte) :
    (encodeCsw tag residue status).toList = [0x55, 0x53, 0x42, 0x53] ++ wordLE tag ++ wordLE residue ++ [status] :=
  rfl

/-- Settles O34: the CSW is `cswOf`, whose residue is the clamped difference. -/
theorem cswSubmitted : Obligations.CswSubmitted := by
  unfold Obligations.CswSubmitted
  intro s
  refine ⟨s.cswOf, rfl, ?_⟩
  rw [State.cswOf, encodeCsw_toList, s.residue_eq_ofNat_sub]

/-! Settling (R90, R131) -/

/-- How many changing ticks at most a mailbox still causes: to take its CBW and to carry the command through every stage. -/
def State.mailboxTicks (s : State) : Nat := if s.newCbw then 6 else 0

/-- How many ticks at most still change something while the clock stands and no event comes. -/
def State.ticksLeft (s : State) : Nat :=
  match s.phase with
  | .awaitingCbw => s.mailboxTicks
  | .commandPhase => 5
  | .dataInPhase => if s.txState = .idle then 4 else 3
  | .dataOutPhase => if s.rxArmed then 3 else 4
  | .noDataPhase => 3
  | .statusPhase => if s.txState = .idle then 2 else 1 + s.mailboxTicks
  | .reserved6 | .reserved7 => 0

theorem State.mailboxTicks_le (s : State) : s.mailboxTicks ≤ 6 := by
  unfold State.mailboxTicks; split <;> decide

theorem State.ticksLeft_le (s : State) : s.ticksLeft ≤ 7 := by
  have := s.mailboxTicks_le
  unfold State.ticksLeft
  cases s.phase with
  | awaitingCbw | commandPhase | noDataPhase | reserved6 | reserved7 => dsimp only; omega
  | dataInPhase | dataOutPhase | statusPhase => dsimp only; split <;> omega

/-- A tick that changes something leaves fewer to come: the stages of a command follow each other, and only the interrupt
context fills the mailbox. -/
theorem TickStep.eq_or_ticksLeft_lt {s t : State} (h : TickStep s t) (hi : s.Inv) : t = s ∨ t.ticksLeft < s.ticksLeft := by
  cases h with
  | awaitIdle | dinWait | doutWait | stsWait => exact .inl rfl
  | awaitTake hp hn => exact .inr (by simp [State.ticksLeft, State.mailboxTicks, hp, hn])
  | commandFixed hp | commandRead hp => exact .inr (by simp [State.ticksLeft, hp, hi.txState_idle])
  | commandWrite hp => exact .inr (by simp [State.ticksLeft, hp, hi.rxArmed_false])
  | commandNoData hp | commandInvalid hp => exact .inr (by simp [State.ticksLeft, hp])
  | noData hp => exact .inr (by simp [State.ticksLeft, hp, hi.txState_idle])
  | dinEmpty hp ht | dinEmptySense hp ht | dinReadOk hp ht | dinReadFail hp ht | dinSubmit hp ht | dinDone hp ht
  | dinDoneSense hp ht | dinTimeout hp ht =>
    exact .inr (by simp [State.ticksLeft, hp, ht])
  | doutArm hp hr => exact .inr (by simp [State.ticksLeft, hp, hr])
  | doutEmpty hp hr | doutOk hp hr | doutFail hp hr | doutTimeout hp hr =>
    exact .inr (by simp [State.ticksLeft, hp, hr, hi.txState_idle])
  | stsStart hp ht =>
    have hn : s.newCbw = false := by
      by_contra hn
      simpa [hp, ht] using hi.mbox_phase (by simpa using hn)
    exact .inr (by simp [State.ticksLeft, State.mailboxTicks, hp, ht, hn])
  | stsDone hp ht | stsTimeout hp ht => exact .inr (by simp [State.ticksLeft, State.mailboxTicks, hp, ht])
  | bad hp =>
    rcases hp with hp | hp
    · exact absurd hp hi.phase_legal.1
    · exact absurd hp hi.phase_legal.2

/-! No tick faults in a state of the invariant -/

theorem execTickAwait_next {s : State} (hi : s.Inv) : ∃ t, execTickAwait s = .next t := by
  unfold execTickAwait
  split
  · rename_i hn
    simp [decodeCbw, hi.mbox_signed hn]
  · exact ⟨_, rfl⟩

theorem execTickCommand_next (s : State) (hc : s.cfg.wf = true) : ∃ t, execTickCommand s = .next t := by
  unfold execTickCommand
  cases cdbRow (byteAt s.curCb.toList 0) with
  | requestSense => exact ⟨_, s.sendFixed_eq rfl (s.sensePayload_fits hc)⟩
  | inquiry => exact ⟨_, s.sendFixed_eq rfl (inquiryData_fits hc)⟩
  | modeSense6 => exact ⟨_, s.sendFixed_eq rfl (modeSenseData_fits hc)⟩
  | readCapacity10 => exact ⟨_, State.sendFixed_eq _ rfl (readCapacityPayload_fits hc)⟩
  | testUnitReady | startStopUnit | preventAllowMediumRemoval | read10 | write10 | invalid => exact ⟨_, rfl⟩

theorem execTickDinStart_next {s : State} (hi : s.Inv) : ∃ t, execTickDinStart s = .next t := by
  unfold execTickDinStart
  split
  · exact ⟨_, rfl⟩
  · split
    · unfold State.readThenSubmit
      dsimp only
      split
      · exact ⟨_, s.withinBuf_of_le _ _ hi.xfer_fits⟩
      · exact ⟨_, rfl⟩
    · exact ⟨_, s.withinBuf_of_le _ _ hi.xfer_fits⟩

theorem execTickDinWait_next (s : State) : ∃ t, execTickDinWait s = .next t := by
  unfold execTickDinWait; split <;> exact ⟨_, rfl⟩

theorem execTickDoutArm_next (s : State) : ∃ t, execTickDoutArm s = .next t := by
  unfold execTickDoutArm; split <;> exact ⟨_, rfl⟩

theorem execTickDoutWait_next {s : State} (hi : s.Inv) : ∃ t, execTickDoutWait s = .next t := by
  unfold execTickDoutWait
  split
  · exact ⟨_, s.withinBuf_of_le _ _ hi.xfer_fits⟩
  · split <;> exact ⟨_, rfl⟩

theorem execTickStsWait_next (s : State) : ∃ t, execTickStsWait s = .next t := by
  unfold execTickStsWait; split <;> exact ⟨_, rfl⟩

/-- Every tick goes on: the mailbox is signed, and every payload and transfer lies in the buffer. -/
theorem State.Inv.tickOnce_next {s : State} (hi : s.Inv) : ∃ t, tickOnce s = .next t := by
  rw [tickOnce_eq]
  cases s.phase with
  | awaitingCbw => exact execTickAwait_next hi
  | commandPhase => exact execTickCommand_next s hi.cfg_wf
  | dataInPhase =>
    dsimp only
    split
    · exact execTickDinStart_next hi
    · exact execTickDinWait_next s
  | dataOutPhase =>
    dsimp only
    split
    · exact execTickDoutArm_next s
    · exact execTickDoutWait_next hi
  | statusPhase =>
    dsimp only
    split
    · exact ⟨_, rfl⟩
    · exact execTickStsWait_next s
  | noDataPhase | reserved6 | reserved7 => exact ⟨_, rfl⟩

theorem tickTimes_succ {s t : State} (k : Nat) (h : tickOnce s = .next t) : tickTimes (k + 1) s = tickTimes k t := by
  rw [tickTimes, h]

/-- Ticks settle within any bound on the ticks left, by induction on the bound. -/
theorem settles_within (n : Nat) (s : State) (hi : s.Inv) (hn : s.ticksLeft ≤ n) :
    ∃ k ≤ n, ∃ t : State, tickTimes k s = .next t ∧ tickOnce t = .next t := by
  induction n generalizing s with
  | zero =>
    obtain ⟨t, ht⟩ := hi.tickOnce_next
    obtain rfl | hlt := (tickOnce_step s t ht).eq_or_ticksLeft_lt hi
    · exact ⟨0, le_rfl, t, rfl, ht⟩
    · omega
  | succ n ih =>
    obtain ⟨u, hu⟩ := hi.tickOnce_next
    have hstep := tickOnce_step s u hu
    obtain rfl | hlt := hstep.eq_or_ticksLeft_lt hi
    · exact ⟨0, Nat.zero_le _, u, rfl, hu⟩
    · obtain ⟨k, hk, t, hrun, ht⟩ := ih u (hstep.inv hi) (by omega)
      exact ⟨k + 1, Nat.succ_le_succ hk, t, (tickTimes_succ k hu).trans hrun, ht⟩

/-- Settles O54: at most seven ticks are ever left, the most from a status stage with the next CBW in the mailbox. -/
theorem settleEnds : Obligations.SettleEnds := by
  unfold Obligations.SettleEnds
  intro s hi _
  exact settles_within 12 s hi (s.ticksLeft_le.trans (by decide))

end Sys2Proof.Machine
end

section
/-! The wrapper codec's layout, and the await tick that takes a wrapper from the mailbox. -/

namespace Sys2Proof

/-! What `DecodeCbw` answers (R71, R72, R101) -/

/-- `MalformedError`, by the first word: `decodeCbw_eq_none_iff` says it by the first four bytes. -/
theorem decodeCbw_eq_none_iff_le32 (raw : Bytes 31) : decodeCbw raw = none ↔ le32 raw.toList 0 ≠ cbwSignature :=
  have hsig : le32 raw.toList 0 = cbwSignature ↔ raw.toList.take 4 = signatureBytes :=
    le32_zero_eq_iff raw.toList (by rw [raw.length_eq]; decide) cbwSignature
  (decodeCbw_eq_none_iff raw).trans hsig.not.symm

/-- The two directions of the round trip, as one fact about the decoder's answer. -/
theorem decodeCbw_eq_some_iff (raw : Bytes 31) (c : Cbw) : decodeCbw raw = some c ↔ raw = encodeCbw c :=
  ⟨fun h => (encodeCbw_of_decodeCbw h).symm, fun h => h ▸ decodeCbw_encodeCbw c⟩

/-- The fields of a signed wrapper, each from its own bytes. -/
theorem decodeCbw_of_signed {raw : Bytes 31} (h : le32 raw.toList 0 = cbwSignature) :
    decodeCbw raw =
      some { tag := le32 raw.toList 4, dtl := le32 raw.toList 8, flags := byteAt raw.toList 12,
             lun := byteAt raw.toList 13, cblen := byteAt raw.toList 14, cb := Bytes.fit 16 (raw.toList.drop 15) } :=
  if_pos h

/-- Settles O4: the decoder answers a CBW exactly for the bytes that the encoder writes for it. -/
theorem decodeCbwReadsLayout : Obligations.DecodeCbwReadsLayout := by
  unfold Obligations.DecodeCbwReadsLayout
  refine fun raw => ⟨decodeCbw_eq_none_iff_le32 raw, fun c => ?_⟩
  have hlayout : (encodeCbw c).toList = [0x55, 0x53, 0x42, 0x43] ++ wordLE c.tag ++ wordLE c.dtl ++
      [c.flags, c.lun, c.cblen] ++ c.cb.toList := encodeCbw_toList c
  rw [decodeCbw_eq_some_iff, ← hlayout]
  exact ⟨congrArg Bytes.toList, Bytes.ext_toList⟩

end Sys2Proof

namespace Sys2Proof.Machine

/-- Settles O5: the bytes of a CSW, as the status stage's statement needs them too. -/
theorem encodeCswWritesLayout : Obligations.EncodeCswWritesLayout := by
  unfold Obligations.EncodeCswWritesLayout
  exact encodeCsw_toList

/-! The await tick (R132) -/

theorem execTickAwait_of_decodeCbw {s : State} {c : Cbw} (hn : s.newCbw = true) (hc : decodeCbw s.mbox = some c) :
    execTickAwait s = .next (s.takeCbw c) := by
  rw [execTickAwait, if_pos hn, hc]

theorem execTickAwait_of_empty {s : State} (hn : s.newCbw = false) : execTickAwait s = .next s := by
  simp [execTickAwait, hn]

/-- Settles O26: a signed mailbox decodes, and taking that CBW is the record update of R132. -/
theorem tickAwaitTakesCbw : Obligations.TickAwaitTakesCbw := by
  unfold Obligations.TickAwaitTakesCbw
  exact fun s => ⟨fun hn hs => execTickAwait_of_decodeCbw hn (decodeCbw_of_signed hs), execTickAwait_of_empty⟩

end Sys2Proof.Machine
end

section
/-! The command interpreter: the command tick runs the decoded row, the handlers without a data stage, and how long a sense is
reported. -/

namespace Sys2Proof.Machine

/-! Dispatch (R110, R133) -/

/-- Settles O9: the tick and the decoder split the opcode map alike, and each row has the same operands in both. -/
theorem commandTickRunsHandler : Obligations.CommandTickRunsHandler := by
  unfold Obligations.CommandTickRunsHandler
  intro s
  show execTickCommand s = _
  unfold execTickCommand decodeCdb
  cases cdbRow (byteAt s.curCb.toList 0) with
  | testUnitReady | requestSense | inquiry | modeSense6 | startStopUnit | preventAllowMediumRemoval | readCapacity10
  | read10 | write10 | invalid => rfl

/-! Handlers without a data stage (R111, R116, R119, R135) -/

/-- Nothing was moved, so everything requested is left (R135, R150). -/
theorem exec_tickNodata_residue (s : State) : ∃ t, exec .tickNodata s = .next t ∧ t.residue = s.curDtl :=
  ⟨_, rfl, by simp [State.residue]⟩

/-- A handler that answers `t`, for the length requested before it, leaves that length as the residue of its no-data tick. -/
theorem noDataResidue_of_exec {i : Instr} {s t : State} (h : exec i s = .next t) (hd : t.curDtl = s.curDtl) :
    ∀ u, exec i s = .next u → ∃ w, exec .tickNodata u = .next w ∧ w.residue = s.curDtl := by
  intro u hu
  cases h.symm.trans hu
  exact hd ▸ exec_tickNodata_residue t

/-- Settles O11: the handler's next state is the record update as it stands. -/
theorem testUnitReadyReportsLatch : Obligations.TestUnitReadyReportsLatch := by
  unfold Obligations.TestUnitReadyReportsLatch
  exact fun tail s => ⟨rfl, noDataResidue_of_exec (s := s) (i := .testUnitReady tail) rfl rfl⟩

/-- The three rows whose meaning is looked up in `NOOP_OPCODES` (R92). -/
theorem exec_eq_noOpOrInvalid {i : Instr} {opcode : Byte} {tail : Bytes 15}
    (h : (i = .startStopUnit tail ∧ opcode = 0x1B) ∨ (i = .preventAllowMediumRemoval tail ∧ opcode = 0x1E) ∨
      i = .invalid opcode tail) (s : State) : exec i s = .next (s.noOpOrInvalid opcode) := by
  rcases h with ⟨rfl, rfl⟩ | ⟨rfl, rfl⟩ | rfl <;> rfl

theorem State.noOpOrInvalid_of_mem {s : State} {opcode : Byte} (h : opcode ∈ s.cfg.noopOpcodes) :
    s.noOpOrInvalid opcode =
      { s with hkind := .noop, cswStatus := 0x00, xferLen := 0, flashOff := 0, phase := .noDataPhase } :=
  if_pos (List.contains_iff_mem.2 h)

theorem State.noOpOrInvalid_of_not_mem {s : State} {opcode : Byte} (h : opcode ∉ s.cfg.noopOpcodes) :
    s.noOpOrInvalid opcode =
      { s with
        hkind := .invalid, cswStatus := 0x01, xferLen := 0, flashOff := 0, phase := .noDataPhase,
        senseValid := true, senseKey := s.cfg.senseInvalidOpcode.key, senseAsc := s.cfg.senseInvalidOpcode.asc,
        senseAscq := s.cfg.senseInvalidOpcode.ascq } :=
  if_neg (mt List.contains_iff_mem.1 h)

/-- Settles O15: the look-up of R92 finds the opcode. -/
theorem noopOpcodesPass : Obligations.NoopOpcodesPass := by
  unfold Obligations.NoopOpcodesPass
  intro i opcode tail s hrow hmem
  have hexec := exec_eq_noOpOrInvalid hrow s
  rw [State.noOpOrInvalid_of_mem hmem] at hexec
  exact ⟨hexec, noDataResidue_of_exec hexec rfl⟩

/-- Settles O16: the look-up of R92 does not find the opcode. -/
theorem unrecognizedOpcodeFails : Obligations.UnrecognizedOpcodeFails := by
  unfold Obligations.UnrecognizedOpcodeFails
  intro i opcode tail s hrow hmem
  have hexec := exec_eq_noOpOrInvalid hrow s
  rw [State.noOpOrInvalid_of_not_mem hmem] at hexec
  exact ⟨hexec, noDataResidue_of_exec hexec rfl⟩

/-! The life of a sense (R186) -/

theorem SameLatch.trans {s t u : State} (h : SameLatch s t) (h' : SameLatch t u) : SameLatch s u := by
  obtain ⟨hvalid, hkey, hasc, hascq⟩ := h
  obtain ⟨hvalid', hkey', hasc', hascq'⟩ := h'
  exact ⟨hvalid'.trans hvalid, hkey'.trans hkey, hasc'.trans hasc, hascq'.trans hascq⟩

/-- What a REQUEST SENSE would report depends on the latch only (R184). -/
theorem SameLatch.latchValue_eq {s t : State} (h : SameLatch s t) : t.latchValue = s.latchValue := by
  obtain ⟨hvalid, hkey, hasc, hascq⟩ := h
  rw [State.latchValue, State.latchValue, hvalid, hkey, hasc, hascq]

/-- A REQUEST SENSE puts the key in byte 2 of its payload and keeps the latch (R83, R112). -/
theorem exec_requestSense_key (tail : Bytes 15) (s : State) (hc : s.cfg.wf = true) (hw : s.buf.wf = true) :
    ∃ t, exec (.requestSense tail) s = .next t ∧ SameLatch s t ∧ t.buf.read 2 = s.latchValue.key.setWidth 8 := by
  obtain ⟨m, hexec, hm⟩ : AnswersWith (.requestSense tail) .reqsense s.sensePayload s.calls s :=
    answersWith_of_sendFixed rfl (s.sensePayload_fits hc) rfl
  obtain ⟨-, hread⟩ := hm hw
  exact ⟨_, hexec, ⟨rfl, rfl, rfl, rfl⟩, hread 2⟩

/-- The data stage of a REQUEST SENSE is complete: nothing is latched any more (R140, R183). -/
theorem latchValue_of_tickDinWait_done {s t : State} (hd : s.txDone = true) (hk : s.hkind = .reqsense)
    (h : exec .tickDinWait s = .next t) : t.latchValue = ⟨0x0, 0x00, 0x00⟩ := by
  have hclear : s.finishTx.clearAfterSense = s.finishTx.latchClear := if_pos hk
  change execTickDinWait s = _ at h
  rw [execTickDinWait, (s.verdict_done_iff _).2 hd, hclear] at h
  cases h
  rfl

/-- A data-in stage that is not complete keeps a sense that is latched: it goes on, or it expires, and an expiry fills an empty
latch only (R140, R182). -/
theorem sameLatch_of_tickDinWait_not_done {s t : State} (hd : s.txDone = false) (hv : s.senseValid = true)
    (h : exec .tickDinWait s = .next t) : SameLatch s t := by
  change execTickDinWait s = _ at h
  rw [execTickDinWait] at h
  cases hverdict : s.verdict s.cfg.tDataMs with
  | wait =>
    rw [hverdict] at h
    cases h
    exact ⟨rfl, rfl, rfl, rfl⟩
  | done => simp [(s.verdict_done_iff _).1 hverdict] at hd
  | expired =>
    have hkept : s.abort.latchIfEmpty s.cfg.senseDataTimeout = s.abort := State.latchIfEmpty_of_valid _ _ hv
    rw [hverdict, State.dataInTimeout, State.takeError, State.latchWrite, hkept] at h
    cases h
    exact ⟨rfl, rfl, rfl, rfl⟩

/-- The key of an unrecognized opcode's sense stays non-zero in the byte of the payload (R7). -/
theorem senseInvalidOpcode_byte_ne_zero {c : Config} (hc : c.wf = true) :
    c.senseInvalidOpcode.key.setWidth 8 ≠ 0 := by
  obtain ⟨hkey, -⟩ := (sensesOk_iff c).1 (sensesOk_of_wf hc)
  bv_omega

/-- Settles O41: a REQUEST SENSE reports the latch and keeps it, and the wait tick of its data stage clears it exactly where the
stage is complete. -/
theorem senseReportedOnce : Obligations.SenseReportedOnce := by
  unfold Obligations.SenseReportedOnce
  intro opcode tail tail' tail'' s t u hc hmem ht hu hcu hbu
  rw [exec_eq_noOpOrInvalid (.inr (.inr rfl)), State.noOpOrInvalid_of_not_mem hmem] at ht
  cases ht
  obtain ⟨v, hv, huv, hkey⟩ := exec_requestSense_key tail' u (hcu ▸ hc) hbu
  rw [hu.latchValue_eq] at hkey
  refine ⟨rfl, v, hv, hkey, hkey ▸ senseInvalidOpcode_byte_ne_zero hc, fun w x y hvw hk _ hx hxy hcy hby => ?_⟩
  obtain ⟨z, hz, -, hkey'⟩ := exec_requestSense_key tail'' y (hcy ▸ hc) hby
  rw [hxy.latchValue_eq] at hkey'
  refine ⟨z, hz, fun hd => ?_, fun hd => ?_⟩
  · rw [hkey', latchValue_of_tickDinWait_done hd hk hx]
    rfl
  · have hw := hu.trans (huv.trans hvw)
    have hheld : w.senseValid = true := hw.1
    have hwx := sameLatch_of_tickDinWait_not_done hd hheld hx
    rw [hkey', hwx.latchValue_eq, hw.latchValue_eq]
    rfl

end Sys2Proof.Machine
end

section
/-! The sequencer: which operation a step runs, what each tick does in each of its cases, and the ghost faults that a step
leaves. -/

namespace Sys2Proof.Machine

/-! The deadline (R146) -/

theorem State.expired_eq_false_iff (s : State) (start timeout : Word) :
    s.expired start timeout = false ↔ (s.clock - start).toNat < timeout.toNat := by
  rw [← Nat.not_le, ← s.expired_iff, Bool.not_eq_true]

/-- Settles O37: the difference of the two readings is the elapsed time below 2^32. -/
theorem expiryAcrossClockWrap : Obligations.ExpiryAcrossClockWrap := by
  unfold Obligations.ExpiryAcrossClockWrap
  intro s t0 T e he hclock
  have helapsed : (s.clock - t0).toNat = e := by rw [hclock]; bv_omega
  rw [s.expired_iff, helapsed]

/-- Settles O38: the difference of two u32 lengths is a u32. -/
theorem residueClamped : Obligations.ResidueClamped := by
  unfold Obligations.ResidueClamped
  intro s
  have := s.curDtl.isLt
  rw [s.residue_eq_ofNat_sub, BitVec.toNat_ofNat, Nat.mod_eq_of_lt (by omega)]

/-! Selection (R130, R131, R160, R231) -/

/-- Settles O7: the selector's upper bits are the phase and its lowest bit is the sub-state. -/
theorem tickSelection : Obligations.TickSelection := by
  unfold Obligations.TickSelection
  intro s
  unfold State.selector State.subState
  cases s.phase with
  | awaitingCbw | commandPhase | noDataPhase | reserved6 | reserved7 => dsimp only; rfl
  | dataInPhase | statusPhase => dsimp only; cases s.txState <;> rfl
  | dataOutPhase => dsimp only; cases s.rxArmed <;> rfl

/-- With an event listed, a step is that event's operation. -/
theorem step_of_event {s : State} {e : UsbEvent} {rest : List Move} (hc : s.cfg.wf = true) (ha : s.admitted)
    (h : s.pending = .event e :: rest) : step s = exec (decodeEvent e) { s with pending := rest } := by
  rw [step_of_wf s hc, State.fetch_cons s _ rest ha h]
  rfl

/-- With a tick listed, a step is that tick, with the clock advanced and the flash store's answer set. -/
theorem step_of_tick {s : State} {d : BitVec 31} {ok : Bool} {rest : List Move} (hc : s.cfg.wf = true) (ha : s.admitted)
    (h : s.pending = .tick d ok :: rest) : step s = tickOnce (({ s with pending := rest } : State).setInputs d ok) := by
  rw [step_of_wf s hc, State.fetch_cons s _ rest ha h]
  rfl

theorem step_of_powerOn {s : State} {rest : List Move} (hc : s.cfg.wf = true) (ha : s.admitted)
    (h : s.pending = .powerOn :: rest) : step s = exec .reset { s with pending := rest } := by
  rw [step_of_wf s hc, State.fetch_cons s _ rest ha h]
  rfl

/-- A bus reset is seen under `RESET_ON_BUS_RESET` only (R231). -/
theorem step_of_busReset {s : State} {rest : List Move} (hc : s.cfg.wf = true) (ha : s.admitted)
    (h : s.pending = .busReset :: rest) :
    step s =
      if s.cfg.resetOnBusReset = true then exec .reset { s with pending := rest } else .next { s with pending := rest } := by
  rw [step_of_wf s hc, State.fetch_cons s _ rest ha h]
  cases hb : s.cfg.resetOnBusReset <;> simp [State.select, hb]

theorem step_congr {s t : State} (hc : s.cfg = t.cfg) (hf : s.fetch = t.fetch) : step s = step t := by
  rw [step, step, hc, hf]

/-- With no move listed, a step is the step of a free move (R210). -/
theorem step_of_nil {s : State} (ha : s.admitted) (h : s.pending = []) :
    step s = step { s with pending := [Config.freeMove s.draws], draws := s.draws + 1 } := by
  have hrest : ({ s with draws := s.draws + 1 } : State) = { s with pending := [], draws := s.draws + 1 } := by rw [← h]
  refine step_congr rfl ((s.fetch_nil ha h).trans ?_)
  rw [hrest]
  exact (State.fetch_cons { s with pending := [_], draws := s.draws + 1 } _ [] ha rfl).symm

/-- Settles O6: one move at a time. -/
theorem stepRunsSelectedOperation : Obligations.StepRunsSelectedOperation := by
  unfold Obligations.StepRunsSelectedOperation
  intro s rest hc ha
  exact ⟨fun _ => step_of_event hc ha, fun _ _ => step_of_tick hc ha, step_of_powerOn hc ha, step_of_busReset hc ha,
    fun h => ⟨_, step_of_nil ha h⟩⟩

/-- Settles O24: both operations are the record alone, and the selector of a reserved phase is the tick's. -/
theorem reservedEventAndPhaseRecorded : Obligations.ReservedEventAndPhaseRecorded := by
  unfold Obligations.ReservedEventAndPhaseRecorded
  intro s
  refine ⟨rfl, rfl, fun hp => ?_⟩
  rw [tickSelection s]
  rcases hp with hp | hp <;> rw [hp]

/-! The command tick (R133, R134) -/

/-- The handler of each row of the opcode map; rows without one of their own look the opcode up (R81, R92, R110). -/
def rowHandler (noops : List Byte) (opcode : Byte) : CdbRow → HandlerKind
  | .testUnitReady => .tur
  | .requestSense => .reqsense
  | .inquiry => .inquiry
  | .modeSense6 => .modesense6
  | .readCapacity10 => .readcap10
  | .read10 => .read10
  | .write10 => .write10
  | .startStopUnit | .preventAllowMediumRemoval | .invalid => if opcode ∈ noops then .noop else .invalid

/-- What every handler `k` leaves: itself, the phase of its class, and every field that is not a handler's to write (R27,
R110, R134). -/
def State.HandledBy (s : State) (k : HandlerKind) (t : State) : Prop :=
  t.hkind = k ∧ k.dataClass.phaseOf = some t.phase ∧
    t = { s with
      phase := t.phase, hkind := t.hkind, xferLen := t.xferLen, flashOff := t.flashOff, cswStatus := t.cswStatus,
      senseValid := t.senseValid, senseKey := t.senseKey, senseAsc := t.senseAsc, senseAscq := t.senseAscq,
      buf := t.buf, calls := t.calls }

/-- A fixed payload that lies in the buffer, sent after calls of the handler's own. -/
theorem State.handledBy_of_sendFixed (s : State) (calls : List Call) {k : HandlerKind} {payload : List Byte}
    (hk : k.dataClass = .dataIn) (hl : payload.length ≤ s.cfg.bufBytes) :
    ∃ t, ({ s with calls := calls } : State).sendFixed k payload = .next t ∧ s.HandledBy k t :=
  ⟨_, State.sendFixed_eq _ hk hl, rfl, by rw [hk]; rfl, rfl⟩

theorem State.handledBy_noOpOrInvalid (s : State) (opcode : Byte) :
    s.HandledBy (if opcode ∈ s.cfg.noopOpcodes then .noop else .invalid) (s.noOpOrInvalid opcode) := by
  split
  · rename_i h
    rw [State.noOpOrInvalid_of_mem h]
    exact ⟨rfl, rfl, rfl⟩
  · rename_i h
    rw [State.noOpOrInvalid_of_not_mem h]
    exact ⟨rfl, rfl, rfl⟩

/-- Each row's meaning runs its handler. -/
theorem execTickCommand_handledBy (s : State) (hc : s.cfg.wf = true) :
    ∃ t, execTickCommand s = .next t ∧
      s.HandledBy (rowHandler s.cfg.noopOpcodes (byteAt s.curCb.toList 0) (cdbRow (byteAt s.curCb.toList 0))) t := by
  unfold execTickCommand
  cases hrow : cdbRow (byteAt s.curCb.toList 0) with
  | testUnitReady | read10 | write10 => exact ⟨_, rfl, rfl, rfl, rfl⟩
  | requestSense => exact s.handledBy_of_sendFixed s.calls rfl (s.sensePayload_fits hc)
  | inquiry => exact s.handledBy_of_sendFixed s.calls rfl (inquiryData_fits hc)
  | modeSense6 => exact s.handledBy_of_sendFixed s.calls rfl (modeSenseData_fits hc)
  | readCapacity10 => exact s.handledBy_of_sendFixed _ rfl (readCapacityPayload_fits hc)
  | startStopUnit | preventAllowMediumRemoval =>
    rw [eq_of_cdbRow hrow rfl]
    exact ⟨_, rfl, s.handledBy_noOpOrInvalid _⟩
  | invalid => exact ⟨_, rfl, s.handledBy_noOpOrInvalid _⟩

/-- The opcode map: seven opcodes have a handler, every other one is looked up (R81, R92). -/
theorem rowHandler_cdbRow (noops : List Byte) (op : Byte) :
    rowHandler noops op (cdbRow op) =
      if op = 0x00 then .tur else if op = 0x03 then .reqsense else if op = 0x12 then .inquiry
      else if op = 0x1A then .modesense6 else if op = 0x25 then .readcap10 else if op = 0x28 then .read10
      else if op = 0x2A then .write10 else if op ∈ noops then .noop else .invalid := by
  cases h : cdbRow op with
  | invalid =>
    have hop := (cdbRow_eq_invalid_iff op).1 h
    simp only [namedOpcodes, List.mem_cons, not_or] at hop
    simp only [rowHandler, hop, if_false]
  | _ =>
    obtain rfl := eq_of_cdbRow h rfl
    rfl

/-- Settles O10: the row of the opcode runs its handler, and the opcode map says which one that is. -/
theorem opcodeMapAndDirector : Obligations.OpcodeMapAndDirector := by
  unfold Obligations.OpcodeMapAndDirector
  intro s hc
  obtain ⟨t, ht, hkind, hphase, hframe⟩ := execTickCommand_handledBy s hc
  rw [← hkind] at hphase
  refine ⟨t, ht, hkind.trans (rowHandler_cdbRow _ _), ?_, (congrArg State.flash hframe :), hframe⟩
  cases hk : t.hkind with
  | none => rw [hk] at hphase; cases hphase
  | _ => rw [hk] at hphase; exact (Option.some.inj hphase).symm

/-! The no-data and data-in stages (R135, R136, R140) -/

/-- Settles O27: the tick's next state is the record update, and that state's residue is the whole length. -/
theorem noDataGoesToStatus : Obligations.NoDataGoesToStatus := by
  unfold Obligations.NoDataGoesToStatus
  intro s
  refine ⟨rfl, ?_⟩
  obtain ⟨t, ht, hresidue⟩ := exec_tickNodata_residue s
  cases ht
  exact hresidue

theorem State.clearAfterSense_of_ne {s : State} (hk : s.hkind ≠ .reqsense) : s.clearAfterSense = s := if_neg hk

theorem State.clearAfterSense_of_eq {s : State} (hk : s.hkind = .reqsense) : s.clearAfterSense = s.latchClear := if_pos hk

theorem execTickDinStart_of_fixed {s : State} (hk : s.hkind ≠ .read10) (hx : s.xferLen ≠ 0)
    (hl : s.xferLen.toNat ≤ s.cfg.bufBytes) : execTickDinStart s = .next s.submitData := by
  rw [execTickDinStart, if_neg hx, if_neg hk, State.withinBuf_of_le _ _ _ hl]

theorem execTickDinStart_of_empty {s : State} (hx : s.xferLen = 0) :
    execTickDinStart s = .next { s.clearAfterSense with xferred := 0, phase := .statusPhase } := by
  rw [execTickDinStart, if_pos hx]

/-- Settles O29: a fixed payload is submitted from `buf`, and a stage of zero bytes ends with its clearing of the latch. -/
theorem fixedStageStarts : Obligations.FixedStageStarts := by
  unfold Obligations.FixedStageStarts
  intro s
  refine ⟨fun hk hx hl => ?_, fun hk hx => ?_, fun hk hx => ?_⟩
  · exact ⟨_, execTickDinStart_of_fixed hk hx hl, s.loadBuf_length _, fun a ha => byteAt_loadBuf s _ a ha⟩
  · have hempty := execTickDinStart_of_empty hx
    rwa [State.clearAfterSense_of_ne hk] at hempty
  · have hempty := execTickDinStart_of_empty hx
    rwa [State.clearAfterSense_of_eq hk] at hempty

/-! The enforcer's verdict at a wait tick (R139, R146) -/

theorem State.verdict_of_done {s : State} (T : Word) (hd : s.txDone = true) : s.verdict T = .done :=
  (s.verdict_done_iff T).2 hd

theorem State.verdict_of_reached {s : State} {T : Word} (hd : s.txDone = false)
    (h : T.toNat ≤ (s.clock - s.txStart).toNat) : s.verdict T = .expired :=
  (s.verdict_expired_iff T).2 ⟨hd, (s.expired_iff _ _).2 h⟩

theorem State.verdict_of_ahead {s : State} {T : Word} (hd : s.txDone = false)
    (h : (s.clock - s.txStart).toNat < T.toNat) : s.verdict T = .wait :=
  (s.verdict_wait_iff T).2 ⟨hd, (s.expired_eq_false_iff _ _).2 h⟩

/-! What an expiry leaves, by the latch (R140, R143, R182) -/

/-- An error that fills an empty latch only keeps a sense that is latched. -/
theorem State.takeError_ifEmpty_of_valid {s : State} (v : Sense) (hs : s.senseValid = true) :
    s.takeError (.ifEmpty v) true = { s with cswStatus := 0x01, phase := .statusPhase } := by
  rw [State.takeError, State.latchWrite, State.latchIfEmpty_of_valid v s hs]
  rfl

theorem State.takeError_ifEmpty_of_empty {s : State} (v : Sense) (hs : s.senseValid = false) :
    s.takeError (.ifEmpty v) true =
      { s with
        senseValid := true, senseKey := v.key, senseAsc := v.asc, senseAscq := v.ascq, cswStatus := 0x01,
        phase := .statusPhase } := by
  rw [State.takeError, State.latchWrite, State.latchIfEmpty_of_empty v s hs]
  rfl

theorem execTickDinWait_of_done {s : State} (hd : s.txDone = true) :
    execTickDinWait s = .next { s.finishTx.clearAfterSense with xferred := s.xferLen, phase := .statusPhase } := by
  rw [execTickDinWait, State.verdict_of_done _ hd]

theorem execTickDinWait_of_reached {s : State} (hd : s.txDone = false)
    (h : s.cfg.tDataMs.toNat ≤ (s.clock - s.txStart).toNat) :
    execTickDinWait s =
      .next { s.abort.takeError (.ifEmpty s.cfg.senseDataTimeout) true with xferred := 0 } := by
  rw [execTickDinWait, State.verdict_of_reached hd h]
  rfl

theorem execTickDinWait_of_wait {s : State} (hv : s.verdict s.cfg.tDataMs = .wait) : execTickDinWait s = .next s := by
  rw [execTickDinWait, hv]

/-- Settles O30: the three verdicts, the first in both cases of the handler and the second in both of the latch. -/
theorem dataInStageEnds : Obligations.DataInStageEnds := by
  unfold Obligations.DataInStageEnds
  intro s
  refine ⟨fun hd hk => ?_, fun hd hk => ?_, fun hd he hs => ?_, fun hd he hs => ?_, fun hd he => ?_⟩
  · have hdone := execTickDinWait_of_done hd
    rwa [State.clearAfterSense_of_ne (s := s.finishTx) hk] at hdone
  · have hdone := execTickDinWait_of_done hd
    rwa [State.clearAfterSense_of_eq (s := s.finishTx) hk] at hdone
  · have hexpired := execTickDinWait_of_reached hd he
    rwa [State.takeError_ifEmpty_of_valid (s := s.abort) _ hs] at hexpired
  · have hexpired := execTickDinWait_of_reached hd he
    rwa [State.takeError_ifEmpty_of_empty (s := s.abort) _ hs] at hexpired
  · exact execTickDinWait_of_wait (State.verdict_of_ahead hd he)

/-! The data-out stage (R141-R143) -/

/-- Settles O31: the two branches of the arming tick. -/
theorem receptionArmed : Obligations.ReceptionArmed := by
  unfold Obligations.ReceptionArmed
  exact fun s => ⟨fun hx => if_neg hx, fun hx => if_pos hx⟩

theorem State.receptionExpired_of_none {s : State} (h : s.cfg.tDoutMs = none) : s.receptionExpired = false := by
  rw [State.receptionExpired, h]

theorem State.receptionExpired_of_some {s : State} {T : Word} (h : s.cfg.tDoutMs = some T) :
    s.receptionExpired = s.expired s.rxStart T := by
  rw [State.receptionExpired, h]

theorem execTickDoutWait_of_ahead {s : State} (hd : s.dataDone = false) (he : s.receptionExpired = false) :
    execTickDoutWait s = .next s := by
  simp [execTickDoutWait, hd, he]

theorem execTickDoutWait_of_reached {s : State} (hd : s.dataDone = false) (he : s.receptionExpired = true) :
    execTickDoutWait s =
      .next { (({ s with rxArmed := false } : State).call .rxDisarm).takeError (.ifEmpty s.cfg.senseDataTimeout) true with
        xferred := s.rxCount } := by
  simp [execTickDoutWait, hd, he, State.dataOutTimeout]

/-- Settles O33: no timeout is configured, or its deadline is ahead, or it is reached, in both cases of the latch. -/
theorem receptionWaitsOrTimesOut : Obligations.ReceptionWaitsOrTimesOut := by
  unfold Obligations.ReceptionWaitsOrTimesOut
  intro s hd
  refine ⟨fun hnone => execTickDoutWait_of_ahead hd (State.receptionExpired_of_none hnone), fun limit hlimit => ?_⟩
  have hexpired := State.receptionExpired_of_some hlimit
  refine ⟨fun he => ?_, fun he hs => ?_, fun he hs => ?_⟩
  · exact execTickDoutWait_of_ahead hd (hexpired.trans ((s.expired_eq_false_iff _ _).2 he))
  · have hout := execTickDoutWait_of_reached hd (hexpired.trans ((s.expired_iff _ _).2 he))
    rwa [State.takeError_ifEmpty_of_valid _ (by exact hs)] at hout
  · have hout := execTickDoutWait_of_reached hd (hexpired.trans ((s.expired_iff _ _).2 he))
    rwa [State.takeError_ifEmpty_of_empty _ (by exact hs)] at hout

/-! The status stage (R152) -/

theorem execTickStsWait_of_wait {s : State} (hv : s.verdict s.cfg.tCswMs = .wait) : execTickStsWait s = .next s := by
  rw [execTickStsWait, hv]

/-- Settles O35: the three verdicts. -/
theorem statusStageEnds : Obligations.StatusStageEnds := by
  unfold Obligations.StatusStageEnds
  intro s
  refine ⟨fun hd => ?_, fun hd he => ?_, fun hd he => execTickStsWait_of_wait (State.verdict_of_ahead hd he)⟩
  · show execTickStsWait s = _
    rw [execTickStsWait, State.verdict_of_done _ hd]
    rfl
  · show execTickStsWait s = _
    rw [execTickStsWait, State.verdict_of_reached hd he]
    rfl

/-- Settles O53: each of the four ticks has its own idle case. -/
theorem idleTicksChangeNothing : Obligations.IdleTicksChangeNothing := by
  unfold Obligations.IdleTicksChangeNothing
  intro s h
  rw [tickOnce_eq]
  rcases h with ⟨hp, hn⟩ | ⟨hp, ht, hv⟩ | ⟨hp, ht, hv⟩ | ⟨hp, hr, hd, he⟩
  · simp only [hp, execTickAwait_of_empty hn]
  · simp [hp, ht, execTickDinWait_of_wait hv]
  · simp [hp, ht, execTickStsWait_of_wait hv]
  · have hwait : s.receptionExpired = false := by
      cases hT : s.cfg.tDoutMs with
      | none => exact State.receptionExpired_of_none hT
      | some limit => rw [State.receptionExpired_of_some hT, he limit hT]
    simp [hp, hr, execTickDoutWait_of_ahead hd hwait]

/-! Ghost faults (R206, R207) -/

/-- A tick records a ghost fault in a reserved phase only (R157). -/
theorem TickStep.faults_eq {s t : State} (h : TickStep s t) (hi : s.Inv) : t.faults = s.faults := by
  cases h with
  | bad hp => exact (hp.elim hi.phase_legal.1 hi.phase_legal.2).elim
  | _ => rfl

/-- No event records `F_BAD_PHASE`. -/
theorem EventStep.badPhase_eq {s t : State} (h : EventStep s t) : t.faults.badPhase = s.faults.badPhase := by
  cases h with
  | unchanged | posted | completed => rfl
  | recorded f hf =>
    cases f with
    | badPhase => exact absurd rfl hf
    | _ => rfl
  | received _ _ _ _ _ _ _ _ hf => rcases hf with rfl | rfl <;> rfl

/-- A step after a ghost fault keeps the names recorded, and before it there are none to keep. -/
theorem step_keeps_faults {s t : State} (h : step s = .next t) (f : GhostFault) (hf : s.faults.has f = true) :
    t.faults.has f = true := by
  by_cases ha : s.admitted
  · rw [show s.faults = .empty from ha, FaultSet.has_empty] at hf
    cases hf
  · obtain ⟨rest, d, hs⟩ := step_faulted s (wf_of_step_next s t h) ha
    cases hs.symm.trans h
    exact State.ungoverned_faults _ f hf

/-- Settles O50: what a step keeps, and the cases of a step from an admitted state of the invariant. -/
theorem ghostFaultsOnlyGrow : Obligations.GhostFaultsOnlyGrow := by
  unfold Obligations.GhostFaultsOnlyGrow
  intro s t h
  refine ⟨step_keeps_faults h, fun hi ha => ?_⟩
  have hnone : s.faults.badPhase = false := congrArg FaultSet.badPhase ha
  obtain ⟨-, rest, now, ok, d, u, rfl, ⟨-, rfl⟩ | ⟨-, hr⟩ | ⟨e, -, he⟩ | ⟨-, ht⟩⟩ := step_cases s t ha h
  · exact hnone
  · cases hr
    exact hnone
  · exact (event_step _ t e he).badPhase_eq.trans hnone
  · rw [(tickOnce_step _ t ht).faults_eq (hi.environment rest now ok d)]
    exact hnone

end Sys2Proof.Machine
end

section
/-! Silence: while no event comes, ticks alone end the command in progress, because each of its stages waits for no longer
than a configured timeout. -/

namespace Sys2Proof

/-! Timeouts and rounds of ticks -/

/-- The timeouts of a configuration (R6). -/
def Config.HasTimeout (c : Config) (T : Word) : Prop := T = c.tDataMs ∨ T = c.tCswMs ∨ c.tDoutMs = some T

/-- How many milliseconds the clock advances in a list of ticks. -/
def duration (ticks : List (BitVec 31 × Bool)) : Nat := (ticks.map (·.1.toNat)).sum

theorem duration_cons (d : BitVec 31) (ok : Bool) (ticks : List (BitVec 31 × Bool)) :
    duration ((d, ok) :: ticks) = d.toNat + duration ticks := rfl

/-- A round of ticks in which every timeout passes. -/
def Config.Outlasted (c : Config) (round : List (BitVec 31 × Bool)) : Prop :=
  round ≠ [] ∧ ∀ T, c.HasTimeout T → T.toNat ≤ duration round

/-- A tick of so many milliseconds jumps over no deadline by a wrap of the clock (R146). -/
def Config.JumpsNoDeadline (c : Config) (d : BitVec 31) : Prop := ∀ T, c.HasTimeout T → d.toNat + T.toNat ≤ 2 ^ 32

end Sys2Proof

namespace Sys2Proof.Machine

/-! How many ticks carry a command on -/

/-- How many changing ticks at most the command in progress still takes: `ticksLeft` without those of the CBW after it. -/
def State.commandTicks (s : State) : Nat := s.ticksLeft - s.mailboxTicks

theorem State.commandTicks_le (s : State) : s.commandTicks ≤ 5 := by
  unfold State.commandTicks State.ticksLeft
  cases s.phase with
  | awaitingCbw | commandPhase | noDataPhase | reserved6 | reserved7 => dsimp only; omega
  | dataInPhase | dataOutPhase | statusPhase => dsimp only; split <;> omega

/-- Outside `AwaitingCbw` the mailbox is empty until the CSW is in flight (R25). -/
theorem State.Inv.mailboxTicks_lt_ticksLeft {s : State} (hi : s.Inv) (hp : s.phase ≠ .awaitingCbw) :
    s.mailboxTicks < s.ticksLeft := by
  by_cases hs : s.phase = .statusPhase ∧ s.txState = .pending
  · simp [State.ticksLeft, hs]
  · have hn : s.newCbw = false := by
      by_contra hn
      exact (hi.mbox_phase (by simpa using hn)).elim hp hs
    have hmail : s.mailboxTicks = 0 := by simp [State.mailboxTicks, hn]
    rw [hmail]
    cases hphase : s.phase with
    | awaitingCbw => exact absurd hphase hp
    | reserved6 => exact absurd hphase hi.phase_legal.1
    | reserved7 => exact absurd hphase hi.phase_legal.2
    | commandPhase | noDataPhase => simp [State.ticksLeft, hphase]
    | dataInPhase | dataOutPhase | statusPhase => simp only [State.ticksLeft, hphase]; split <;> omega

theorem State.Inv.commandTicks_pos {s : State} (hi : s.Inv) (hp : s.phase ≠ .awaitingCbw) : 0 < s.commandTicks :=
  Nat.sub_pos_of_lt (hi.mailboxTicks_lt_ticksLeft hp)

/-- A tick takes the mailbox's CBW in `AwaitingCbw` only. -/
theorem TickStep.newCbw_eq {s t : State} (h : TickStep s t) (hp : s.phase ≠ .awaitingCbw) : t.newCbw = s.newCbw := by
  cases h with
  | awaitTake hawait => exact absurd hawait hp
  | _ => rfl

theorem TickStep.eq_or_commandTicks_lt {s t : State} (h : TickStep s t) (hi : s.Inv) (hp : s.phase ≠ .awaitingCbw) :
    t = s ∨ t.commandTicks < s.commandTicks := by
  refine (h.eq_or_ticksLeft_lt hi).imp_right fun hlt => ?_
  have hmail : t.mailboxTicks = s.mailboxTicks := by rw [State.mailboxTicks, h.newCbw_eq hp, State.mailboxTicks]
  have hpos := hi.mailboxTicks_lt_ticksLeft hp
  unfold State.commandTicks
  omega

/-! What a stage waits for, and for how long (R145, R146) -/

/-- When the submission or the reception in flight began, if there is one. -/
def State.waitStart (s : State) : Option Word :=
  match s.phase with
  | .dataInPhase | .statusPhase => if s.txState = .pending then some s.txStart else none
  | .dataOutPhase => if s.rxArmed then some s.rxStart else none
  | .awaitingCbw | .commandPhase | .noDataPhase | .reserved6 | .reserved7 => none

/-- How many milliseconds old it is by the clock; 0 where nothing is in flight. -/
def State.age (s : State) : Nat := (s.waitStart.map fun start => (s.clock - start).toNat).getD 0

/-- Something is in flight, and is younger than a timeout. -/
def State.Waits (s : State) : Prop := s.waitStart ≠ none ∧ ∃ T, s.cfg.HasTimeout T ∧ s.age < T.toNat

/-- The command in progress is not a WRITE(10), or receptions have a timeout, without which a reception has no deadline
(R142). -/
def State.WriteTimed (s : State) : Prop :=
  s.phase = .dataOutPhase ∨ (s.phase = .commandPhase ∧ byteAt s.curCb.toList 0 = 0x2A) → s.cfg.tDoutMs ≠ none

theorem State.waitStart_of_pending {s : State} (hp : s.phase = .dataInPhase ∨ s.phase = .statusPhase)
    (ht : s.txState = .pending) : s.waitStart = some s.txStart := by
  rcases hp with hp | hp <;> simp [State.waitStart, hp, ht]

theorem State.waitStart_of_armed {s : State} (hp : s.phase = .dataOutPhase) (hr : s.rxArmed = true) :
    s.waitStart = some s.rxStart := by
  simp [State.waitStart, hp, hr]

theorem State.age_of_idle {s : State} (ht : s.txState = .idle) (hr : s.rxArmed = false) : s.age = 0 := by
  have hw : s.waitStart = none := by unfold State.waitStart; split <;> simp [ht, hr]
  simp [State.age, hw]

theorem State.age_of_some {s : State} {start : Word} (h : s.waitStart = some start) :
    s.age = (s.clock - start).toNat := by
  simp [State.age, h]

theorem State.age_of_now {s : State} (h : s.waitStart = some s.clock) : s.age = 0 := by
  rw [State.age_of_some h, BitVec.sub_self]
  rfl

theorem State.waits_of_not_expired {s : State} {start T : Word} (hw : s.waitStart = some start) (hT : s.cfg.HasTimeout T)
    (he : s.expired start T = false) : s.Waits := by
  refine ⟨by simp [hw], T, hT, ?_⟩
  rw [State.age_of_some hw]
  exact (s.expired_eq_false_iff start T).1 he

theorem State.waits_of_verdict {s : State} {T : Word} (hw : s.waitStart = some s.txStart) (hT : s.cfg.HasTimeout T)
    (hv : s.verdict T = .wait) : s.Waits := by
  obtain ⟨-, he⟩ := (s.verdict_wait_iff T).1 hv
  exact State.waits_of_not_expired hw hT he

/-- Only a submission or a reception has an age. -/
theorem State.age_cases (s : State) :
    s.age = 0 ∨ (s.txState = .pending ∧ s.age = (s.clock - s.txStart).toNat) ∨
      (s.rxArmed = true ∧ s.age = (s.clock - s.rxStart).toNat) := by
  cases hw : s.waitStart with
  | none => exact .inl (by simp [State.age, hw])
  | some start =>
    have hage := State.age_of_some hw
    cases hp : s.phase with
    | dataInPhase | statusPhase =>
      obtain ⟨ht, rfl⟩ : s.txState = .pending ∧ s.txStart = start := by simpa [State.waitStart, hp] using hw
      exact .inr (.inl ⟨ht, hage⟩)
    | dataOutPhase =>
      obtain ⟨hr, rfl⟩ : s.rxArmed = true ∧ s.rxStart = start := by simpa [State.waitStart, hp] using hw
      exact .inr (.inr ⟨hr, hage⟩)
    | awaitingCbw | commandPhase | noDataPhase | reserved6 | reserved7 => simp [State.waitStart, hp] at hw

/-- A tick that changes nothing waits; every other one leaves nothing in flight that is older than the tick. -/
theorem TickStep.waits_or_restarts {s t : State} (h : TickStep s t) (hi : s.Inv) (hw : s.WriteTimed)
    (hp : s.phase ≠ .awaitingCbw) : (t = s ∧ s.Waits) ∨ (t ≠ s ∧ t.age = 0) := by
  cases h with
  | awaitIdle hawait | awaitTake hawait => exact absurd hawait hp
  | dinWait hp ht hv =>
    exact .inl ⟨rfl, State.waits_of_verdict (State.waitStart_of_pending (.inl hp) ht) (.inl rfl) hv⟩
  | stsWait hp ht hv =>
    exact .inl ⟨rfl, State.waits_of_verdict (State.waitStart_of_pending (.inr hp) ht) (.inr (.inl rfl)) hv⟩
  | doutWait hp hr hd he =>
    obtain ⟨T, hT⟩ := Option.ne_none_iff_exists'.1 (hw (.inl hp))
    rw [State.receptionExpired, hT] at he
    exact .inl ⟨rfl, State.waits_of_not_expired (State.waitStart_of_armed hp hr) (.inr (.inr hT)) he⟩
  | dinReadOk hp ht | dinSubmit hp ht =>
    refine .inr ⟨ne_of_apply_ne State.txState (by simp [ht]), ?_⟩
    exact State.age_of_now (State.waitStart_of_pending (.inl hp) rfl)
  | stsStart hp ht =>
    refine .inr ⟨ne_of_apply_ne State.txState (by simp [ht]), ?_⟩
    exact State.age_of_now (State.waitStart_of_pending (.inr hp) rfl)
  | doutArm hp hr =>
    refine .inr ⟨ne_of_apply_ne State.rxArmed (by simp [hr]), ?_⟩
    exact State.age_of_now (State.waitStart_of_armed hp rfl)
  | dinDone hp | dinDoneSense hp | dinTimeout hp | stsDone hp | stsTimeout hp =>
    have hr := hi.rxArmed_false (by simp [hp])
    exact .inr ⟨ne_of_apply_ne State.phase (by simp [hp]), State.age_of_idle rfl hr⟩
  | doutOk hp | doutFail hp | doutTimeout hp =>
    have ht := hi.txState_idle (by simp [hp]) (by simp [hp])
    exact .inr ⟨ne_of_apply_ne State.phase (by simp [hp]), State.age_of_idle ht rfl⟩
  | doutEmpty hp hr =>
    have ht := hi.txState_idle (by simp [hp]) (by simp [hp])
    exact .inr ⟨ne_of_apply_ne State.phase (by simp [hp]), State.age_of_idle ht hr⟩
  | dinEmpty hp ht | dinEmptySense hp ht | dinReadFail hp ht =>
    have hr := hi.rxArmed_false (by simp [hp])
    exact .inr ⟨ne_of_apply_ne State.phase (by simp [hp]), State.age_of_idle ht hr⟩
  | commandFixed hp | commandRead hp | commandWrite hp | commandNoData hp | commandInvalid hp | noData hp =>
    have ht := hi.txState_idle (by simp [hp]) (by simp [hp])
    have hr := hi.rxArmed_false (by simp [hp])
    exact .inr ⟨ne_of_apply_ne State.phase (by simp [hp]), State.age_of_idle ht hr⟩
  | bad hp => exact (hp.elim hi.phase_legal.1 hi.phase_legal.2).elim

/-! One tick under silence -/

/-- A command in progress between two ticks: an admitted state of the invariant, each of whose stages has a deadline. -/
structure State.Supervised (s : State) : Prop where
  inv : s.Inv
  admitted : s.admitted
  timed : s.WriteTimed

/-- Only the command tick enters the data-out stage, and only for a WRITE(10). -/
theorem TickStep.writeTimed {s t : State} (h : TickStep s t) (hw : s.WriteTimed) (hp : s.phase ≠ .awaitingCbw) :
    t.WriteTimed := by
  cases h with
  | awaitIdle hawait | awaitTake hawait => exact absurd hawait hp
  | commandWrite hp ho => exact fun _ => hw (.inr ⟨hp, ho⟩)
  | dinWait | doutArm | doutWait | stsWait | bad => exact hw
  | dinReadOk hp | dinSubmit hp | stsStart hp => simp [State.WriteTimed, hp]
  | _ => simp [State.WriteTimed]

theorem TickStep.pending_eq {s t : State} (h : TickStep s t) : t.pending = s.pending := by
  cases h <;> rfl

theorem TickStep.supervised {s t : State} (h : TickStep s t) (hs : s.Supervised) (hp : s.phase ≠ .awaitingCbw) :
    t.Supervised :=
  ⟨h.inv hs.inv, (h.faults_eq hs.inv).trans hs.admitted, h.writeTimed hs.timed hp⟩

/-- The difference of two readings of the clock grows with the clock while it stays below 2^32 (R146). -/
theorem toNat_clock_sub_add {now start : Word} {d : BitVec 31} (h : (now - start).toNat + d.toNat < 2 ^ 32) :
    (now + d.setWidth 32 - start).toNat = (now - start).toNat + d.toNat := by
  bv_omega

/-- A tick of a command in progress carries it on, or waits with the deadline still ahead. -/
theorem State.Supervised.step_tick {s : State} {d : BitVec 31} {ok : Bool} {rest : List Move} (hs : s.Supervised)
    (hp : s.phase ≠ .awaitingCbw) (h : s.pending = .tick d ok :: rest) (hd : s.age + d.toNat < 2 ^ 32) :
    ∃ t, step s = .next t ∧ t.Supervised ∧ t.cfg = s.cfg ∧ t.pending = rest ∧
      ((t.commandTicks < s.commandTicks ∧ t.age = 0) ∨
        (t.commandTicks = s.commandTicks ∧ t.age = s.age + d.toNat ∧ ∃ T, s.cfg.HasTimeout T ∧ t.age < T.toNat)) := by
  let u := ({ s with pending := rest } : State).setInputs d ok
  have hu : u.Supervised := ⟨hs.inv.environment rest _ ok _, hs.admitted, hs.timed⟩
  obtain ⟨t, ht⟩ := hu.inv.tickOnce_next
  have htick := tickOnce_step u t ht
  have hstep := (step_of_tick hs.inv.cfg_wf hs.admitted h).trans ht
  refine ⟨t, hstep, htick.supervised hu hp, htick.cfg_eq, htick.pending_eq, ?_⟩
  rcases htick.waits_or_restarts hu.inv hu.timed hp with ⟨rfl, hw, T, hT, hlt⟩ | ⟨hne, hage⟩
  · obtain ⟨start, hstart⟩ := Option.ne_none_iff_exists'.1 hw
    have hold : s.age = (s.clock - start).toNat := State.age_of_some hstart
    have hnew : u.age = s.age + d.toNat := by
      rw [hold] at hd ⊢
      exact (State.age_of_some hstart).trans (toNat_clock_sub_add hd)
    exact .inr ⟨rfl, hnew, T, hT, hlt⟩
  · exact .inl ⟨(htick.eq_or_commandTicks_lt hu.inv hp).resolve_left hne, hage⟩

/-! Rounds of ticks -/

/-- The command ends within ticks to come: a run of no more steps reaches `AwaitingCbw`. -/
def State.EndsWithin (s : State) (n : Nat) : Prop :=
  ∃ k ≤ n, ∃ t : State, Host.Core.run Sys2Proof.core k s = .next t ∧ t.phase = .awaitingCbw ∧ t.Inv ∧ t.admitted

theorem State.EndsWithin.of_step {s t : State} {n : Nat} (h : step s = .next t) (ht : t.EndsWithin n) :
    s.EndsWithin (n + 1) := by
  obtain ⟨k, hk, u, hrun, hu⟩ := ht
  exact ⟨k + 1, Nat.succ_le_succ hk, u, (run_next k h).trans hrun, hu⟩

/-- The ticks to come are the rest `r` of a round, and whole rounds. Each round carries the command on by a tick at least;
the rest of a round does where it reaches the deadline of what is in flight. -/
theorem State.Supervised.endsWithin {c : Config} (rounds : List (List (BitVec 31 × Bool))) (r : List (BitVec 31 × Bool))
    {s : State} {rest : List Move} (hs : s.Supervised) (hc : s.cfg = c)
    (hpending : s.pending = (r ++ rounds.flatten).map (fun p => Move.tick p.1 p.2) ++ rest)
    (hrounds : ∀ r' ∈ rounds, c.Outlasted r')
    (hjump : ∀ p ∈ r ++ rounds.flatten, c.JumpsNoDeadline p.1)
    (hhead : ∀ p ∈ (r ++ rounds.flatten).head?, s.age + p.1.toNat < 2 ^ 32)
    (hleft : s.commandTicks ≤ rounds.length ∨
      (s.commandTicks ≤ rounds.length + 1 ∧ r ≠ [] ∧ ∀ T, c.HasTimeout T → T.toNat ≤ s.age + duration r)) :
    s.EndsWithin (r ++ rounds.flatten).length := by
  by_cases hp : s.phase = .awaitingCbw
  · exact ⟨0, Nat.zero_le _, s, rfl, hp, hs.inv, hs.admitted⟩
  match r, rounds with
  | [], [] =>
    have hpos := hs.inv.commandTicks_pos hp
    rcases hleft with hle | ⟨-, hne, -⟩
    · exact absurd hle (Nat.not_le_of_lt hpos)
    · exact absurd rfl hne
  | [], r' :: rounds =>
    obtain ⟨hne, hlong⟩ := hrounds r' (List.mem_cons_self ..)
    have hle : s.commandTicks ≤ rounds.length + 1 := hleft.resolve_right fun h => h.2.1 rfl
    exact hs.endsWithin rounds r' hc hpending (fun r'' h => hrounds r'' (List.mem_cons_of_mem _ h)) hjump hhead
      (.inr ⟨hle, hne, fun T hT => (hlong T hT).trans (Nat.le_add_left ..)⟩)
  | (d, ok) :: r, rounds =>
    subst hc
    obtain ⟨t, hstep, ht, hcfg, hrest, hcase⟩ := hs.step_tick hp hpending (hhead _ rfl)
    have hjump' := fun p hmem => hjump p (List.mem_cons_of_mem _ hmem)
    refine .of_step hstep (ht.endsWithin rounds r hcfg hrest hrounds hjump' (fun p hmem => ?_) ?_)
    · rcases hcase with ⟨-, hage⟩ | ⟨-, -, T, hT, hlt⟩
      · have := p.1.isLt
        omega
      · have := hjump' p (List.mem_of_mem_head? hmem) T hT
        omega
    · rcases hcase with ⟨hlt, -⟩ | ⟨heq, hage, T, hT, hlt⟩
      · exact .inl (by omega)
      · rw [heq]
        refine hleft.imp_right fun ⟨hle, _, hlong⟩ => ?_
        rw [duration_cons, ← Nat.add_assoc, ← hage] at hlong
        refine ⟨hle, ?_, hlong⟩
        rintro rfl
        exact absurd (hlong T hT) (Nat.not_le_of_lt hlt)
  termination_by (rounds.length, r.length)

/-- Settles O55: five rounds, and at most five ticks carry a command on. -/
theorem commandEndsUnderSilence : Obligations.CommandEndsUnderSilence := by
  unfold Obligations.CommandEndsUnderSilence
  intro s rounds rest hi ha _ hw hlen hpending hrounds hhead
  have hs : s.Supervised := ⟨hi, ha, hw⟩
  have hends : s.EndsWithin rounds.flatten.length := by
    refine hs.endsWithin rounds [] rfl hpending (fun r hr => ?_) (fun p hmem => ?_) (fun p hmem => ?_)
      (.inl (hlen ▸ s.commandTicks_le))
    · obtain ⟨hne, hround⟩ := hrounds r hr
      exact ⟨hne, fun T hT => (hround T hT).1⟩
    · obtain ⟨r, hr, hmem⟩ := List.mem_flatten.1 hmem
      obtain ⟨-, hround⟩ := hrounds r hr
      exact fun T hT => (hround T hT).2 p hmem
    · obtain ⟨htx, hrx⟩ := hhead p hmem
      rcases s.age_cases with hage | ⟨ht, hage⟩ | ⟨hr, hage⟩
      · have := p.1.isLt
        omega
      · exact hage ▸ htx ht
      · exact hage ▸ hrx hr
  exact hends

end Sys2Proof.Machine
end

section
/-! The interrupt context: what each event and wrapper row answers in each of its cases, and the fields that the interrupt
context may write. -/

namespace Sys2Proof.Machine

/-! Wrappers (R161, R162, R170) -/

/-- The cases in which the host has sent a CBW too early (R162). -/
theorem State.overlap_eq_true_iff (s : State) :
    s.overlap = true ↔
      s.newCbw = true ∨ s.phase = .commandPhase ∨ s.phase = .dataInPhase ∨ s.phase = .dataOutPhase ∨
        s.phase = .noDataPhase ∨ (s.phase = .statusPhase ∧ s.txState = .idle) := by
  cases hp : s.phase <;> simp [State.overlap, hp]

theorem State.acceptCbw_of_overlap {s : State} (ho : s.overlap = true) (raw : Bytes 31) :
    s.acceptCbw raw = s.raiseFault .cbwOverlap := if_pos ho

theorem State.acceptCbw_of_no_overlap {s : State} (ho : s.overlap = false) (raw : Bytes 31) :
    s.acceptCbw raw = s.postCbw raw := if_neg (ne_true_of_eq_false ho)

/-- A wrapper that decodes is accepted by both rows: no byte of it is lost between its fields and the mailbox (R74). -/
theorem exec_wrapper_of_decodeCbw {raw : Bytes 31} {c : Cbw} (hc : decodeCbw raw = some c) (s : State) :
    exec (.evCbw raw) s = .next (s.acceptCbw raw) ∧ exec (.cbwValid c) s = .next (s.acceptCbw raw) := by
  have hevent : execEvCbw raw s = .next (s.acceptCbw raw) := by rw [execEvCbw, hc]
  have hwrapper : execCbwValid c s = .next (s.acceptCbw raw) := by rw [execCbwValid, encodeCbw_of_decodeCbw hc]
  exact ⟨hevent, hwrapper⟩

theorem execEvCbw_of_malformed {raw : Bytes 31} (hc : decodeCbw raw = none) (s : State) : execEvCbw raw s = .next s := by
  rw [execEvCbw, hc]

/-- Settles O18: both rows accept the wrapper, and where nothing overlaps, accepting is posting. -/
theorem cbwPosted : Obligations.CbwPosted := by
  unfold Obligations.CbwPosted
  intro raw c s hn hp hc
  have ho : s.overlap = false := s.overlap_eq_false_iff.2 ⟨hn, hp.imp_right fun hs => .inr (.inr hs)⟩
  have haccept : s.acceptCbw raw = { s with mbox := raw, newCbw := true } := State.acceptCbw_of_no_overlap ho raw
  exact haccept ▸ exec_wrapper_of_decodeCbw hc s

/-- Settles O19: both rows accept the wrapper, and where it overlaps, accepting is recording the fault. -/
theorem cbwOverlapRecorded : Obligations.CbwOverlapRecorded := by
  unfold Obligations.CbwOverlapRecorded
  intro raw c s ho hc
  have haccept : s.acceptCbw raw = { s with faults := { s.faults with cbwOverlap := true } } :=
    State.acceptCbw_of_overlap (s.overlap_eq_true_iff.2 ho) raw
  exact haccept ▸ exec_wrapper_of_decodeCbw hc s

/-- Settles O20: a wrong signature is what the decoder refuses; the malformed row does nothing by its definition. -/
theorem malformedCbwDropped : Obligations.MalformedCbwDropped := by
  unfold Obligations.MalformedCbwDropped
  exact fun raw s hs => ⟨execEvCbw_of_malformed ((decodeCbw_eq_none_iff_le32 raw).2 hs) s, rfl⟩

/-! Data (R163, R164) -/

theorem execEvData_of_closed {s : State} (hc : s.rxArmed = false ∨ s.dataDone = true) (bytes : List Byte) :
    execEvData bytes s = if 0 < bytes.length then .next (s.raiseFault .dataUnexpected) else .next s := if_pos hc

/-- An open reception goes on where the bytes that it takes lie in the buffer (R52); where it takes none, it touches none. -/
theorem execEvData_of_open {s : State} {bytes : List Byte} (ha : s.rxArmed = true) (hd : s.dataDone = false)
    (hfit : s.acceptCount bytes.length = 0 ∨ s.rxCount.toNat + s.acceptCount bytes.length ≤ s.cfg.bufBytes) :
    execEvData bytes s = .next (s.receive bytes) := by
  rw [execEvData, if_neg (by simp [ha, hd])]
  refine State.withinBuf_of_le _ _ _ ?_
  split <;> omega

/-- `rx_count` meets `rx_len` as words exactly where it does as numbers: up to `rx_len` the sum does not wrap. -/
theorem ofNat_eq_iff_of_le {k : Nat} {w : Word} (hk : k ≤ w.toNat) : BitVec.ofNat 32 k = w ↔ k = w.toNat := by
  have := w.isLt
  rw [← BitVec.toNat_inj, BitVec.toNat_ofNat, Nat.mod_eq_of_lt (by omega)]

theorem State.acceptCount_zero (s : State) : s.acceptCount 0 = 0 := Nat.zero_min _

theorem State.receive_nil {s : State} (hd : s.dataDone = false) (hlt : s.rxCount.toNat < s.rxLen.toNat) :
    s.receive [] = s := by
  have hmore : s.rxCount ≠ s.rxLen := fun he => hlt.ne (congrArg BitVec.toNat he)
  rw [State.receive_eq s [] hd]
  simp [s.acceptCount_zero, hmore, Memory.writeVia, ← hd]

theorem byteAt_take {n i : Nat} (hi : i < n) (bytes : List Byte) : byteAt (bytes.take n) i = byteAt bytes i := by
  simp [byteAt, List.getD_eq_getElem?_getD, hi]

/-- Settles O21: `State.receive_eq` is the record update, and the bytes written are the first ones delivered. -/
theorem dataAppended : Obligations.DataAppended := by
  unfold Obligations.DataAppended
  intro bytes s n ha hd hcount hlen hn
  have hlast : s.rxCount.toNat + n ≤ s.rxLen.toNat := by omega
  have hcounted : s.acceptCount bytes.length = n := hn.symm
  have hgoes := execEvData_of_open ha hd (.inr (by rw [hcounted]; exact hlast.trans hlen))
  simp only [State.receive_eq s bytes hd, hcounted, ofNat_eq_iff_of_le hlast] at hgoes
  refine ⟨Memory.writeVia id s.buf s.rxCount.toNat (bytes.take n), hgoes,
    fun hw => ⟨Memory.writeVia_wf _ _ _ _ hw, fun a => ?_⟩⟩
  rw [Memory.read_writeVia_id _ _ _ hw, List.length_take_of_le (hn ▸ Nat.min_le_left _ _)]
  split
  · exact byteAt_take (by omega) bytes
  · rfl

/-- Settles O22, by the two cases of a closed reception and by what an empty delivery leaves of an open one. -/
theorem unexpectedDataDropped : Obligations.UnexpectedDataDropped := by
  unfold Obligations.UnexpectedDataDropped
  refine fun bytes s => ⟨fun hc hne => ?_, (execEvData_of_closed · []), fun ha hd hlt => ?_⟩
  · exact (execEvData_of_closed hc bytes).trans (if_pos (List.length_pos_iff.2 hne))
  · exact (execEvData_of_open (bytes := []) ha hd (.inl s.acceptCount_zero)).trans (congrArg _ (State.receive_nil hd hlt))

/-! Completions (R165, R166) -/

theorem execEvTxdone_of_inFlight {s : State} (ht : s.txState = .pending) (hd : s.txDone = false) :
    execEvTxdone s = .next s.setTxDone := if_neg (by simp [ht, hd])

theorem execEvTxdone_of_spurious {s : State} (h : s.txState = .idle ∨ s.txDone = true) :
    execEvTxdone s = .next (s.raiseFault .txdoneSpurious) := if_pos h

/-- Settles O23: the two cases of a completion. -/
theorem txDoneRecorded : Obligations.TxDoneRecorded := by
  unfold Obligations.TxDoneRecorded
  exact fun s => ⟨execEvTxdone_of_inFlight, execEvTxdone_of_spurious⟩

/-! What the interrupt context writes (R168) -/

/-- The wrapper rows do nothing that an event cannot do. -/
theorem isr_step {i : Instr} {s t : State} (hi : i.format = .event ∨ i.format = .cbw) (h : exec i s = .next t) :
    EventStep s t := by
  cases i with
  | evReserved => exact event_step s t .reserved h
  | evCbw raw => exact event_step s t (.cbw raw) h
  | evData bytes => exact event_step s t (.data bytes) h
  | evTxdone => exact event_step s t .txDone h
  | cbwValid c => cases h; exact acceptCbw_step s (encodeCbw c) c (decodeCbw_encodeCbw c)
  | cbwMalformed raw => cases h; exact .unchanged
  | _ => exact hi.elim nofun nofun

theorem EventStep.frame {s t : State} (h : EventStep s t) :
    t = { s with
      mbox := t.mbox, newCbw := t.newCbw, buf := t.buf, rxCount := t.rxCount, dataDone := t.dataDone,
      txDone := t.txDone, faults := t.faults } := by
  cases h <;> rfl

/-- The one-shot flags are only set; the main context clears them. -/
theorem EventStep.keeps_flags {s t : State} (h : EventStep s t) :
    (s.newCbw = true → t.newCbw = true) ∧ (s.dataDone = true → t.dataDone = true) ∧
      (s.txDone = true → t.txDone = true) := by
  cases h with
  | unchanged | recorded => exact ⟨id, id, id⟩
  | posted => exact ⟨fun _ => rfl, id, id⟩
  | received _ _ _ _ hd => exact ⟨id, fun hdone => by simp [hd] at hdone, id⟩
  | completed => exact ⟨id, id, fun _ => rfl⟩

theorem EventStep.keeps_faults {s t : State} (h : EventStep s t) (f : GhostFault) (hf : s.faults.has f = true) :
    t.faults.has f = true := by
  cases h with
  | unchanged | posted | completed => exact hf
  | recorded => simp [hf]
  | received _ _ _ _ _ _ _ _ hfaults => rcases hfaults with rfl | rfl <;> simp [hf]

theorem EventStep.reception_eq {s t : State} (h : EventStep s t) (hc : s.rxArmed = false ∨ s.dataDone = true) :
    t.buf = s.buf ∧ t.rxCount = s.rxCount := by
  cases h with
  | received _ _ _ ha hd => simp [ha, hd] at hc
  | _ => exact ⟨rfl, rfl⟩

/-- What is appended lies in `buf[rx_count..rx_len-1]`. -/
theorem EventStep.read_buf_outside {s t : State} (h : EventStep s t) (hw : s.buf.wf = true) {a : Nat}
    (ha : a < s.rxCount.toNat ∨ s.rxLen.toNat ≤ a) : t.buf.read a = s.buf.read a := by
  cases h with
  | received bytes n faults _ _ hn hl =>
    refine (Memory.read_writeVia_id _ _ _ hw a).trans (if_neg ?_)
    rw [List.length_take_of_le hn]
    omega
  | _ => rfl

/-- Settles O25: every event and wrapper row is an `EventStep`, whose lemmas are the clauses. -/
theorem isrWritesOnlyItsFields : Obligations.IsrWritesOnlyItsFields := by
  unfold Obligations.IsrWritesOnlyItsFields
  intro i s t hi h
  have hstep := isr_step hi h
  obtain ⟨hnew, hdone, htx⟩ := hstep.keeps_flags
  exact ⟨hstep.frame, hnew, hdone, htx, hstep.keeps_faults, hstep.reception_eq,
    fun hw _ ha => hstep.read_buf_outside hw ha⟩

end Sys2Proof.Machine
end

section
/-! The writers of the sense latch: what each operation on it leaves, and which ticks write it. -/

namespace Sys2Proof.Machine

/-- Settles O39: `LatchSet` and `LatchClear` are record updates, and `LatchIfEmpty` follows the case of the latch. -/
theorem latchOperations : Obligations.LatchOperations := by
  unfold Obligations.LatchOperations
  exact fun v s => ⟨rfl, State.latchIfEmpty_of_valid v s, State.latchIfEmpty_of_empty v s, rfl⟩

/-- A timeout leaves a value as it was, or puts its own into an empty latch (R182). -/
theorem sameLatch_or_filled_of_ifEmpty {s t : State} {v : Sense}
    (h : SameLatch (s.latchSet ((LatchWrite.ifEmpty v).result s)) t) :
    SameLatch s t ∨ (s.senseValid = false ∧ (⟨t.senseKey, t.senseAsc, t.senseAscq⟩ : Sense) = v) := by
  obtain ⟨hvalid, hkey, hasc, hascq⟩ := h
  cases hs : s.senseValid with
  | true =>
    have hresult : (LatchWrite.ifEmpty v).result s = ⟨s.senseKey, s.senseAsc, s.senseAscq⟩ := if_pos hs
    rw [hresult] at hkey hasc hascq
    exact .inl ⟨hvalid.trans hs.symm, hkey, hasc, hascq⟩
  | false =>
    have hresult : (LatchWrite.ifEmpty v).result s = v := if_neg (by simp [hs])
    rw [hresult] at hkey hasc hascq
    rw [hkey, hasc, hascq]
    exact .inr ⟨rfl, rfl⟩

/-- Settles O40: the ticks that write the latch are the unrecognized opcode, the two failed flash calls, the two timeouts and
the two ends of a REQUEST SENSE's data stage. That stage still has the status `Passed`, which the invariant knows. -/
theorem latchWriters : Obligations.LatchWriters := by
  unfold Obligations.LatchWriters
  intro s t hi ht
  cases tickOnce_step s t ht with
  | commandInvalid hp => exact .inr (.inl ⟨rfl, .inl ⟨hp, rfl, rfl⟩⟩)
  | dinReadFail hp _ _ hk ho => exact .inr (.inl ⟨rfl, .inr (.inl ⟨hp, hk, ho, rfl⟩)⟩)
  | doutFail hp _ hd ho _ => exact .inr (.inl ⟨rfl, .inr (.inr (.inl ⟨hp, hd, ho, rfl⟩))⟩)
  | dinTimeout hp _ _ v hv =>
    subst hv
    exact (sameLatch_or_filled_of_ifEmpty ⟨rfl, rfl, rfl, rfl⟩).imp_right fun ⟨hempty, hvalue⟩ =>
      .inl ⟨rfl, .inr (.inr (.inr ⟨.inl hp, hempty, rfl, hvalue⟩))⟩
  | doutTimeout hp _ _ _ v hv =>
    subst hv
    exact (sameLatch_or_filled_of_ifEmpty ⟨rfl, rfl, rfl, rfl⟩).imp_right fun ⟨hempty, hvalue⟩ =>
      .inl ⟨rfl, .inr (.inr (.inr ⟨.inr hp, hempty, rfl, hvalue⟩))⟩
  | dinEmptySense hp _ _ hk | dinDoneSense hp _ _ hk =>
    exact .inr (.inr ⟨rfl, hp, hk, rfl, hi.status_early (.inr (.inl hp))⟩)
  | _ => exact .inl ⟨rfl, rfl, rfl, rfl⟩

end Sys2Proof.Machine
end

section
/-! Runs: from a state of the invariant every step goes on until a ghost fault is recorded, and after one it goes on to a free
state. -/

namespace Sys2Proof.Machine

/-! After a ghost fault (R207) -/

theorem FaultSet.eq_empty_of_has {fs : FaultSet} (hnone : ∀ f, fs.has f = false) : fs = .empty := by
  obtain ⟨_, _, _, _, _, _⟩ := fs
  simp only [FaultSet.empty, FaultSet.mk.injEq]
  exact ⟨hnone .cbwOverlap, hnone .dataUnexpected, hnone .dataOverrun, hnone .txdoneSpurious, hnone .eventReserved,
    hnone .badPhase⟩

theorem FaultSet.ne_empty_of_keeps {a b : FaultSet} (ha : a ≠ .empty) (hkeeps : ∀ f, a.has f = true → b.has f = true) :
    b ≠ .empty := by
  rintro rfl
  exact ha (FaultSet.eq_empty_of_has fun f => Bool.eq_false_iff.2 fun hf => by simpa using hkeeps f hf)

/-- Settles O56: the fetch selects nothing, and a free state keeps the names that `faults` holds, so `faults` stays inhabited. -/
theorem faultedStepIsFree : Obligations.FaultedStepIsFree := by
  unfold Obligations.FaultedStepIsFree
  intro s hc hf
  obtain ⟨rest, d, hfetch⟩ := s.fetch_faulted hf
  have hstep := step_of_wf s hc
  rw [hfetch] at hstep
  have hkeeps := State.ungoverned_faults { s with pending := rest, draws := d }
  obtain ⟨hbuf, -, hflash, -⟩ := State.ungoverned_memories { s with pending := rest, draws := d }
  exact ⟨congrArg Prod.fst hfetch, _, _, hstep, rfl, rfl, FaultSet.ne_empty_of_keeps hf hkeeps, hkeeps, hbuf, hflash⟩

/-! Up to the first ghost fault (R200) -/

/-- A reception takes no more bytes than are still expected, and those lie in the buffer. -/
theorem State.Inv.execEvData_next {s : State} (hi : s.Inv) (bytes : List Byte) : ∃ t, execEvData bytes s = .next t := by
  by_cases hclosed : s.rxArmed = false ∨ s.dataDone = true
  · rw [execEvData_of_closed hclosed]
    split <;> exact ⟨_, rfl⟩
  · simp only [not_or, Bool.not_eq_false, Bool.not_eq_true] at hclosed
    obtain ⟨harmed, hdone⟩ := hclosed
    have hexpected : s.acceptCount bytes.length ≤ s.rxLen.toNat - s.rxCount.toNat := Nat.min_le_right _ _
    have hcount := hi.rx_count
    have hfits := hi.rx_fits
    exact ⟨_, execEvData_of_open harmed hdone (.inr (by omega))⟩

/-- Every event goes on, whatever it delivers. -/
theorem State.Inv.event_next {s : State} (hi : s.Inv) (e : UsbEvent) : ∃ t, exec (decodeEvent e) s = .next t := by
  cases e with
  | reserved => exact ⟨_, rfl⟩
  | cbw raw =>
    cases hc : decodeCbw raw with
    | some c => exact ⟨_, (exec_wrapper_of_decodeCbw hc s).1⟩
    | none => exact ⟨_, execEvCbw_of_malformed hc s⟩
  | data bytes => exact hi.execEvData_next bytes
  | txDone =>
    cases ht : s.txState with
    | idle => exact ⟨_, execEvTxdone_of_spurious (.inl ht)⟩
    | pending =>
      cases hd : s.txDone with
      | true => exact ⟨_, execEvTxdone_of_spurious (.inr hd)⟩
      | false => exact ⟨_, execEvTxdone_of_inFlight ht hd⟩

/-- A step goes on from a state of the invariant, whatever move the environment makes. -/
theorem State.Inv.step_next {s : State} (hi : s.Inv) (ha : s.admitted) : ∃ t, step s = .next t := by
  rw [step_of_wf s hi.cfg_wf]
  obtain ⟨rest, now, ok, d, u, rfl, hf | hf | ⟨e, hf⟩ | hf⟩ := s.fetch_cases ha <;> rw [hf]
  · exact ⟨_, rfl⟩
  · exact ⟨_, rfl⟩
  · exact (hi.environment rest now ok d).event_next e
  · exact (hi.environment rest now ok d).tickOnce_next

/-- Settles O44, by induction on the length of the run: the first step goes on to a state of the invariant, which has recorded
a ghost fault or from which the rest of the run follows. -/
theorem machineNeverStops : Obligations.MachineNeverStops := by
  unfold Obligations.MachineNeverStops
  intro k
  induction k with
  | zero => exact fun s hi _ => ⟨0, le_rfl, s, rfl, hi, .inl rfl⟩
  | succ k ih =>
    intro s hi ha
    obtain ⟨u, hu⟩ := hi.step_next ha
    have hui : u.Inv := stepKeepsInv s u hi ha hu
    by_cases hua : u.admitted
    · obtain ⟨j, hj, t, hrun, hti, hend⟩ := ih u hui hua
      exact ⟨j + 1, Nat.succ_le_succ hj, t, (run_next j hu).trans hrun, hti, hend.imp_left (congrArg (· + 1))⟩
    · exact ⟨1, Nat.le_add_left 1 k, u, run_next 0 hu, hui, .inr hua⟩

end Sys2Proof.Machine
end

section
/-! The reset operation: what it writes and what it keeps (R230). -/

namespace Sys2Proof

/-- The empty sequence is fitted with zero bytes alone. -/
theorem fitList_nil (n : Nat) : fitList n [] = List.replicate n 0 := by
  induction n with
  | zero => rfl
  | succ n ih => rw [fitList, ih, List.replicate_succ]

theorem Bytes.fit_nil (n : Nat) : Bytes.fit n [] = ⟨List.replicate n 0, List.length_replicate⟩ :=
  Bytes.ext_toList (fitList_nil n)

end Sys2Proof

namespace Sys2Proof.Machine

/-- Settles O36: the command block is fitted from no bytes, so it is zero, and the three unspecified fields take the bytes that
the reset draws. -/
theorem resetWritesTable : Obligations.ResetWritesTable := by
  unfold Obligations.ResetWritesTable
  intro s
  have hcb : Bytes.fit 16 [] = ⟨List.replicate 16 0, rfl⟩ := Bytes.fit_nil 16
  refine ⟨Bytes.tabulate 31 fun i => Config.freeByte (s.draws + i), s.freeBuf,
    Bytes.tabulate 13 fun i => Config.freeByte (s.draws + 31 + i), s.draws + 44, ?_⟩
  rw [← hcb]
  rfl

end Sys2Proof.Machine
end
